-- ==== Sys2Proof/Word.lean ====
section
/-! DEFINITION. The bit widths of the Dresbel 7100 (spec/00_scope.md, Conventions). -/

namespace Sys2Proof

/-- A word of a sector image: 16 bits (00, Numbers). -/
abbrev Word := BitVec 16

/-- A byte of the service line (R154). -/
abbrev Byte := BitVec 8

/-- A reading of the time base: 40 bits of microseconds (00, Times). -/
abbrev Time := BitVec 40

/-- One frame of the read channel's cell clock: bit t is set when a transition fell at position t,
0..31 (R54). -/
abbrev CellFrame := BitVec 32

/-- The 39 bits of a store cell: bits 0..31 are the two words, bits 32..38 the check bits (R129). -/
abbrev CellBits := BitVec 39

/-- A set of sectors: bit k stands for sector k (R163). -/
abbrev SectorSet := BitVec 16

end Sys2Proof
end

