-- ==== Sys2Proof/Config.lean ====
section
/-! DEFINITION. What the part fixes (sizes and codes), and the free values of the model: opaque
constants without a body for what the manual leaves open. -/

namespace Sys2Proof

/-- Keep slots of the store (R128). -/
abbrev Config.keepSlots : Nat := 5120
/-- All slots of the store (R128). -/
abbrev Config.allSlots : Nat := 6144
/-- Cells of one slot (R128). -/
abbrev Config.slotCells : Nat := 83
/-- Image cells of one slot (R128). -/
abbrev Config.imageCells : Nat := 66
/-- Cells of the whole store (R128). -/
abbrev Config.storeCells : Nat := 509952
/-- Words of a sector image (section 1.2). -/
abbrev Config.imageWords : Nat := 131
/-- Vendor code of IDENTIFY (R166). -/
abbrev Config.vendorCode : Nat := 0x5A56
/-- Part code of IDENTIFY (R166). -/
abbrev Config.partCode : Nat := 0x7100

/-- FREE VALUE (log entry 6): the syndrome that three or more wrong bits of a cell form (R129 names
no code). -/
opaque Config.eccSyndrome : CellBits → BitVec 7

/-- FREE VALUE (log entry 6): the nonzero syndrome, less one, that one or two wrong bits form. -/
opaque Config.eccFewSyndrome : CellBits → Fin 127

/-- FREE VALUE (log entry 6): whether a nonzero syndrome formed by three or more wrong bits reads as
a single error (otherwise as a double error). -/
opaque Config.eccReadsSingle : BitVec 7 → Bool

/-- FREE VALUE (log entry 6): the bit a single-error syndrome makes the TS invert when three or more
bits are wrong. -/
opaque Config.eccBitOf : BitVec 7 → Fin 39

end Sys2Proof
end

