-- ==== Sys2Proof/Syntax.lean ====
section
/-! DEFINITION. The commands of the part: one constructor per row of spec/opcode_table.json. The table
gives its rows no fields; the operands are what the rules say travels with the command or event, or
what the part samples at it. -/

namespace Sys2Proof

/-- A drive port, 0..3. -/
abbrev DriveNo := Fin 4

/-- The steps of the part (spec/opcode_table.json, spec/95_what_each_step_holds.md). -/
inductive Instr where
  /-- POWER_UP: the retention latch, the two rate straps and the READY line of each drive. -/
  | powerUp (retention strap1 strap2 : Bool) (ready : BitVec 4)
  | storeInitComplete
  | restart
  | restartReset
  | busClear
  | lineBreak
  | breakEnd
  | seek (d : DriveNo) (cylinder : Fin 512)
  | recalibrate (d : DriveNo)
  | headSelect (d : DriveNo) (head : Fin 4)
  | read (d : DriveNo) (sector : Fin 16)
  | write (d : DriveNo) (sector : Fin 16)
  | driveOnCylinder (d : DriveNo)
  | driveSeekError (d : DriveNo)
  | driveReadyDrop (d : DriveNo)
  | driveReadyRise (d : DriveNo)
  | offlineLostTimeout (d : DriveNo)
  /-- SECTOR_PULSE: with the drive's WRITE_PROTECT line at the pulse (R34). -/
  | sectorPulse (d : DriveNo) (writeProtect : Bool)
  | relaySectorWriteEnd (d : DriveNo)
  | emissionEnd (d : DriveNo)
  | awaitingSlotTimeout (d : DriveNo)
  | indexPulse (d : DriveNo)
  | indexWatchdogExpiry (d : DriveNo)
  /-- SYNC_HUNT_LIMIT: the frames of cells 1.. of the slot. -/
  | syncHuntLimit (d : DriveNo) (frames : List CellFrame)
  /-- IMAGE_COMPLETE: the 2,064 frames of words 2..130. -/
  | imageComplete (d : DriveNo) (frames : List CellFrame)
  | controllerWriteGateRaise (d : DriveNo)
  | controllerWriteGateDrop (d : DriveNo)
  /-- ABSORPTION_COMPLETE: the controller's 128 data words and its check word (R38). -/
  | absorptionComplete (d : DriveNo) (data : List Word) (check : Word)
  | diversionCommitComplete (d : DriveNo)
  | emitFillComplete (d : DriveNo)
  /-- CAPTURE_WRITE_COMPLETE: which of the channel's two buffers. -/
  | captureWriteComplete (d : DriveNo) (buffer : Fin 2)
  /-- OFFSET_SETTLE_TIMER: with the drive's ON_CYLINDER line at that moment (R68). -/
  | offsetSettleTimer (d : DriveNo) (onCylinder : Bool)
  | offsetFaultTimeout (d : DriveNo)
  | engineSeekTimeout (d : DriveNo)
  | restoreSeekTimeout (d : DriveNo)
  | idleGraceExpiry (d : DriveNo)
  | starveLimitExpiry (job : Byte)
  | take (d : DriveNo)
  | holdLimitExpiry (d : DriveNo)
  | solveStart
  /-- SNAPSHOT_READ_COMPLETE: the pool slot whose read has completed. -/
  | snapshotReadComplete (slot : Nat)
  | deliveryWriteComplete
  /-- STORE_ACCESS_GRANT: which of the operations requested earliest is served when several were
  requested at the same moment (R130), and which of the cell's 39 bits have gone wrong since its last
  access (R129). -/
  | storeAccessGrant (pick : Nat) (wrong : CellBits)
  | refreshTick
  | scrubTick
  | refreshBurst
  /-- SCRUB_ACCESS: which of the cell's 39 bits have gone wrong since its last access. -/
  | scrubAccess (wrong : CellBits)
  | fetchSectorReadEnd
  | fetchCaptureReadEnd
  | storeSectorWriteEnd
  | patchWriteEnd
  | writeBufferFillEnd (d : DriveNo)
  /-- DIRECTORY_COPY_END: the keep slot the copy has filled. -/
  | directoryCopyEnd (slot : Nat)
  /-- FRAME_RECEIVED: the second check byte, which ends the frame (R155). -/
  | frameReceived (last : Byte)
  | framingFault
  | frameGapTimeout
  | transmitFrameEnd
  | identify
  | getTime
  | getDrive
  | setProfile
  | getProfile
  | setSolve
  | setShare
  | setLadder
  | getLadder
  | fileJob
  | cancelJob
  | getJob
  | listJobs
  | listSuspects
  | dropSuspect
  | listKeep
  | fetchSector
  | fetchCapture
  | storeSector
  | patchWord
  | releaseSector
  | getStoreLog
  | clearStoreLog
  | setScrub
  | unknownRequest
  | byteReceived (b : Byte)
  /-- SYNC_FOUND: the frames of cells 1.. of the slot up to the sync cell. -/
  | syncFound (d : DriveNo) (frames : List CellFrame)
  /-- HEADER_WORDS_READ: the 32 frames of words 0 and 1. -/
  | headerWordsRead (d : DriveNo) (frames : List CellFrame)
  deriving DecidableEq, Repr

end Sys2Proof
end

