-- ==== Sys2Proof/Machine/State.lean ====
section
/-! DEFINITION. The state of the 7100 as plain data, block by block, and the state right after reset. Each
field's docstring names the rule that gives it; "the model's own" marks a field the spec does not name. -/

namespace Sys2Proof.Machine

/-- Why a step can stop. -/
inductive Fault where
  /-- An access to a store cell beyond 509,951, which the spec says does not exist (R128). Raised by
  STORE_ACCESS_GRANT and SCRUB_ACCESS; safe: a state whose operations and scrub address lie in the
  store never raises it. -/
  | noSuchCell
  deriving DecidableEq, Repr

/-- Why a command has no meaning. -/
inductive Refusal where
  /-- A command without a meaning in exec; no arm answers it. Safe. -/
  | notModelled (mnemonic : String)
  deriving DecidableEq, Repr

/-- Four records, one per drive port. -/
structure Quad (α : Type) where
  d0 : α
  d1 : α
  d2 : α
  d3 : α
  deriving DecidableEq, Repr

/-- The record of drive d. -/
def Quad.get {α : Type} (q : Quad α) (d : DriveNo) : α :=
  match d with
  | 0 => q.d0
  | 1 => q.d1
  | 2 => q.d2
  | 3 => q.d3

/-- The four records with that of drive d replaced. -/
def Quad.set {α : Type} (q : Quad α) (d : DriveNo) (x : α) : Quad α :=
  match d with
  | 0 => { q with d0 := x }
  | 1 => { q with d1 := x }
  | 2 => { q with d2 := x }
  | 3 => { q with d3 := x }

/-- A sector address (00, Addresses on the pack). -/
structure Addr where
  drive : DriveNo
  cyl : Fin 512
  head : Fin 4
  sector : Fin 16
  deriving DecidableEq, Repr

/-- A track (00, Addresses on the pack). -/
structure Track where
  drive : DriveNo
  cyl : Fin 512
  head : Fin 4
  deriving DecidableEq, Repr

/-- A grade of a solve result (R121). -/
inductive Grade where | a | b | c
  deriving DecidableEq, Repr

/-- A head offset (R53, R94). -/
inductive Offset where | zero | inward | outward
  deriving DecidableEq, Repr

/-- A drive profile (R9). volume none is ANY. -/
structure Profile where
  cylinders : Nat
  heads : Nat
  sectors : Nat
  volume : Option (BitVec 12)
  period : Nat
  deriving DecidableEq, Repr

/-- The default profile (section 1.6). -/
def Profile.default : Profile :=
  { cylinders := 411, heads := 2, sectors := 14, volume := none, period := 25000 }

/-- The lines of a drive port and of the controller port for that drive, as last seen or driven. -/
structure Pins where
  ready : Bool
  onCylinder : Bool
  seekError : Bool
  writeProtect : Bool
  /-- the controller's write gate (R35) -/
  ctrlGate : Bool
  /-- the head last selected at the drive (R17, R77, R84) -/
  head : Fin 4
  deriving DecidableEq, Repr

/-- Tracker states (R41). -/
inductive TrackerState where | searching | locked | freeRun
  deriving DecidableEq, Repr

/-- The tracker record (R41). -/
structure Tracker where
  state : TrackerState
  position : Nat
  revCount : Nat
  suppress : Bool
  lastIndex : Option Time
  history : List Nat
  doubt : Bool
  inBand : Nat
  slipCount : Nat
  deriving DecidableEq, Repr

/-- The tracker after POWER-UP or RESTART (R41). -/
def Tracker.reset : Tracker :=
  { state := .searching, position := 0, revCount := 0, suppress := false, lastIndex := none,
    history := [], doubt := true, inBand := 0, slipCount := 0 }

/-- Outcomes of the header test (R7). -/
inductive HeaderOutcome where | matched | address | volume
  deriving DecidableEq, Repr

/-- The fields of a header as read (R5). -/
structure Header where
  cyl : Nat
  head : Nat
  format : Nat
  sector : Nat
  volume : Nat
  deriving DecidableEq, Repr

/-- Pass tags (R62, R98). -/
inductive PassTag where
  | step (n : Nat)
  | live
  | prepare
  | verify
  | survey
  deriving DecidableEq, Repr

/-- What a CAPTURE slot is read for: the job (by its serial), the sector and the pool slot set aside
for it, or none (R61, R62). -/
structure CaptureFor where
  job : Nat
  sector : Nat
  slot : Option Nat
  deriving DecidableEq, Repr

/-- A LIVE set-up (R61); capture none is CHECK mode. -/
structure LiveSetup where
  cyl : Nat
  head : Nat
  sector : Nat
  capture : Option CaptureFor
  deriving DecidableEq, Repr

/-- One listed slot of a PASS set-up (R62); capture none is CHECK mode. -/
structure SlotPlan where
  sector : Nat
  capture : Option CaptureFor
  acted : Bool
  deriving DecidableEq, Repr

/-- A PASS set-up (R62). -/
structure PassSetup where
  cyl : Nat
  head : Nat
  shift : Int
  tag : PassTag
  passNo : Nat
  plans : List SlotPlan
  deriving DecidableEq, Repr

/-- The channel's set-up (R53). -/
inductive Setup where
  | none
  | live (x : LiveSetup)
  | pass (x : PassSetup)
  deriving DecidableEq, Repr

/-- Slot activity (R53). -/
inductive Activity where | idle | hunting | reading | complete
  deriving DecidableEq, Repr

/-- States of a capture buffer (R64). -/
inductive BufferState where | free | receiving | handed | writing
  deriving DecidableEq, Repr

/-- A capture buffer: words, word qualities and report fields (R63, R64). -/
structure CaptureBuffer where
  state : BufferState
  words : List Word
  quals : List Nat
  who : CaptureFor
  outcome : HeaderOutcome
  sound : Bool
  time : Time
  total : Nat
  shift : Int
  offset : Offset
  tag : PassTag
  passNo : Nat
  deriving DecidableEq, Repr

/-- A FREE buffer holds nothing (R64). -/
def CaptureBuffer.empty : CaptureBuffer :=
  { state := .free, words := [], quals := [], who := { job := 0, sector := 0, slot := none },
    outcome := .matched, sound := false, time := 0, total := 0, shift := 0, offset := .zero,
    tag := .live, passNo := 0 }

/-- The channel record (R53) and the open slot's particulars (R59..R64, R68). -/
structure Channel where
  shift : Int
  slotShift : Int
  offset : Offset
  settling : Bool
  offsetAt : Time
  setup : Setup
  activity : Activity
  slotNo : Nat
  slotFor : Option CaptureFor
  slotBuf : Option (Fin 2)
  notKept : Bool
  run : Nat
  cells : Nat
  wordIndex : Nat
  check : Word
  header : Option (HeaderOutcome × Header)
  found : Bool
  sound : Bool
  capTime : Time
  lastFrame : CellFrame
  buf0 : CaptureBuffer
  buf1 : CaptureBuffer
  deriving DecidableEq, Repr

/-- The channel after POWER-UP or RESTART (R53). -/
def Channel.reset : Channel :=
  { shift := 0, slotShift := 0, offset := .zero, settling := false, offsetAt := 0, setup := .none,
    activity := .idle, slotNo := 0, slotFor := none, slotBuf := none, notKept := false, run := 0,
    cells := 0, wordIndex := 0, check := 0, header := none, found := false, sound := false,
    capTime := 0, lastFrame := 0, buf0 := .empty, buf1 := .empty }

/-- Commands of the controller (section 2.1). -/
inductive CtrlCmd where
  | seek (c : Fin 512)
  | recalibrate
  | headSelect (h : Fin 4)
  | read (k : Fin 16)
  | write (k : Fin 16)
  deriving DecidableEq, Repr

/-- Phases of the command record (section 2.1). -/
inductive Phase where | none | held | seeking | awaitingSlot | transfer
  deriving DecidableEq, Repr

/-- The course a READ or WRITE has been given: plain pass-through by address (R13, R34.1), relayed and
checked (R29), emitted from the buffer (R23), passed (R35), write-protected (R34.2), refused (R36) or
diverted (R37). undecided: a WRITE before its opening pulse. -/
inductive Course where
  | undecided | plain | relay | emit | pass | protect | refuse | divert
  deriving DecidableEq, Repr

/-- The command record (R15) with what was read at the command's start (R19, R22). -/
structure CmdRec where
  phase : Phase
  cmd : Option CtrlCmd
  target : Addr
  beyond : Bool
  started : Time
  limit : Nat
  sub : Bool
  grade : Grade
  course : Course
  deriving DecidableEq, Repr

/-- The address (0, 0, 0, 0), held where no address is. -/
def Addr.zero : Addr := { drive := 0, cyl := 0, head := 0, sector := 0 }

/-- The record with phase NONE. -/
def CmdRec.idle : CmdRec :=
  { phase := .none, cmd := none, target := .zero, beyond := false, started := 0, limit := 0,
    sub := false, grade := .b, course := .undecided }

/-- The live position (R18). -/
structure LivePos where
  cyl : Fin 512
  head : Fin 4
  established : Bool
  deriving DecidableEq, Repr

/-- States of an emit buffer (R24), with its use as the absorption buffer (R37). -/
inductive EmitState where | invalid | filling | valid | absorbing
  deriving DecidableEq, Repr

/-- An emit buffer (R24). -/
structure EmitBuffer where
  state : EmitState
  addr : Addr
  image : List Word
  deriving DecidableEq, Repr

/-- An INVALID emit buffer. -/
def EmitBuffer.empty : EmitBuffer := { state := .invalid, addr := .zero, image := [] }

/-- A diversion in progress (R37..R40): its target, its held slot, the volume and the words of the header
emitted, whether the controller's gate has risen, whether the commit has begun and with which image, and
whether a BUS CLEAR came during the commit. -/
structure Diversion where
  target : Addr
  slot : Nat
  volume : BitVec 12
  header : List Word
  gate : Bool
  committing : Bool
  image : List Word
  cleared : Bool
  deriving DecidableEq, Repr

/-- LP's records for one drive (chapter 2). -/
structure LivePath where
  cmd : CmdRec
  pos : LivePos
  buf : EmitBuffer
  emission : Option (List Word)
  bufChanged : Bool
  sub : Bool
  grade : Grade
  divert : Bool
  seOver : Bool
  wpOver : Bool
  seeking : Bool
  gate : Bool
  releases : Bool
  autoWait : Bool
  diversion : Option Diversion
  deriving DecidableEq, Repr

/-- LP's records after POWER-UP (R15, R18, R22, R24). -/
def LivePath.reset : LivePath :=
  { cmd := .idle, pos := { cyl := 0, head := 0, established := false }, buf := .empty,
    emission := none, bufChanged := false, sub := false, grade := .b, divert := false,
    seOver := false, wpOver := false, seeking := false, gate := false, releases := false,
    autoWait := false, diversion := none }

/-- Owner states (R70). -/
inductive Owner where
  | liveIdle | liveBusy | taking | enginePosition | enginePass | engineRestore | offline
  deriving DecidableEq, Repr

/-- Share modes (R72). -/
inductive ShareMode where | liveFirst | salvageFirst | salvageOnly | liveOnly
  deriving DecidableEq, Repr

/-- Share settings (R72), times in ms. -/
structure Share where
  mode : ShareMode
  pending : Option ShareMode
  hold : Nat
  grace : Nat
  starve : Nat
  deriving DecidableEq, Repr

/-- Default share settings (R72). -/
def Share.default : Share :=
  { mode := .liveFirst, pending := none, hold := 80, grace := 30, starve := 2000 }

/-- The step of positioning (R77) or restore (R84) in progress. leftover is a movement that a RESTART
left to end at the drive (R88). -/
inductive Work where
  | idle | offsetOff | recal | seek | offsetOn | retryRecal
  | leftover | restoreOffset | restoreSeek | restoreRecal
  deriving DecidableEq, Repr

/-- The settings of a positioning and of the pass it leads to (R77, R96). -/
structure PosPlan where
  cyl : Nat
  head : Nat
  shift : Int
  offset : Offset
  recal : Bool
  deriving DecidableEq, Repr

/-- The settings before the first positioning. -/
def PosPlan.none : PosPlan := { cyl := 0, head := 0, shift := 0, offset := .zero, recal := false }

/-- The job a drive serves (R70): its serial, and its id, which stands after the job has finished. -/
structure JobRef where
  serial : Nat
  id : Nat
  deriving DecidableEq, Repr

/-- Kinds of a pass (R70). -/
inductive PassKind where | read | write
  deriving DecidableEq, Repr

/-- Where the engine has set the heads (R70). -/
structure EnginePos where
  cyl : Nat
  head : Nat
  offset : Offset
  deriving DecidableEq, Repr

/-- The RELAY write buffer (R106, R141): empty, waiting for a capture write, being filled, or holding
the built image of a sector. fromImage says that the source is a PREPARE image. -/
inductive WriteBuffer where
  | empty
  | waiting (sector : Nat)
  | filling (sector : Nat) (fromImage : Bool)
  | ready (sector : Nat) (fromImage : Bool) (image : List Word)
  deriving DecidableEq, Repr

/-- The arbiter record (R70), the step in progress, the failure mask of a SURVEY pass (R104), and the RELAY
write path. abandon says that the engine lets no further positioning step start (R82), preempted that a held
command lets none (R78, R83); limitHit that the hold limit has expired for the command held (R83); stopAtEnd
that a pass ends when the sector being written is complete (R83); missed that a WRITE pass came to a slot whose
image was not ready (R141); writing and writeImage are the sector and image the part is writing with the
drive's gate raised (R4). -/
structure Arbiter where
  owner : Owner
  held : Bool
  holdStart : Option Time
  idleStart : Option Time
  headCyl : Option (Fin 512)
  enginePos : Option EnginePos
  served : Option JobRef
  passKind : Option PassKind
  slots : Nat
  atBoundary : Bool
  retryUsed : Bool
  second : Bool
  seekFault : Bool
  offlineStart : Option Time
  lost : Bool
  share : Share
  work : Work
  workAt : Time
  plan : PosPlan
  abandon : Bool
  preempted : Bool
  limitHit : Bool
  stopAtEnd : Bool
  missed : Bool
  surveyMask : SectorSet
  wbuf : WriteBuffer
  writing : Option Nat
  writeImage : List Word
  deriving DecidableEq, Repr

/-- The arbiter at a reset whose drive reports READY (R70). -/
def Arbiter.reset (now : Time) (ready : Bool) : Arbiter :=
  { owner := if ready then .liveIdle else .offline, held := false, holdStart := none,
    idleStart := if ready then some now else none, headCyl := none, enginePos := none, served := none,
    passKind := none, slots := 0, atBoundary := false, retryUsed := false, second := false,
    seekFault := false, offlineStart := if ready then none else some now, lost := false,
    share := .default, work := .idle, workAt := 0,
    plan := .none, abandon := false, preempted := false, limitHit := false, stopAtEnd := false,
    missed := false, surveyMask := 0, wbuf := .empty, writing := none, writeImage := [] }

/-- One drive port with its blocks. -/
structure Drive where
  profile : Profile
  pins : Pins
  rt : Tracker
  rc : Channel
  lp : LivePath
  da : Arbiter
  deriving DecidableEq, Repr

/-- Job kinds (chapter 6). -/
inductive JobKind where | salvage | relay | survey
  deriving DecidableEq, Repr

/-- Job states (R93). -/
inductive JobState where | waiting | active | settling
  deriving DecidableEq, Repr

/-- Take levels (R74). -/
inductive TakeLevel where | patient | pressing
  deriving DecidableEq, Repr

/-- Statuses of a SALVAGE sector (R97). -/
inductive SectorStatus where
  | pending | provisional | resolved | ambiguous | misplaced | superseded
  deriving DecidableEq, Repr

/-- An entry of a capture set (R98). held false is a pending entry. -/
structure Capture where
  slot : Nat
  held : Bool
  lock : Bool
  tag : PassTag
  passNo : Nat
  shift : Int
  offset : Offset
  total : Nat
  time : Time
  deriving DecidableEq, Repr

/-- A pending entry of a capture set (R98); its fields after the slot are zero (R169). -/
def Capture.pendingAt (slot : Nat) : Capture :=
  { slot := slot, held := false, lock := false, tag := .step 0, passNo := 0, shift := 0,
    offset := .zero, total := 0, time := 0 }

/-- The grade fields of a result or RECOVERED entry (R121, R132). -/
structure Rating where
  grade : Grade
  flips : Nat
  minConf : Nat
  used : Nat
  deriving DecidableEq, Repr

/-- A best result (R125). -/
structure Best where
  rating : Rating
  time : Time
  deriving DecidableEq, Repr

/-- A target sector of a SALVAGE (R97, R98). slot is its reserved slot. -/
structure SalvageSector where
  sector : Nat
  status : SectorStatus
  caps : List Capture
  best : Option Best
  slot : Option Nat
  deriving DecidableEq, Repr

/-- Image sources of a RELAY sector (R105). -/
inductive ImageSource where | none | keep | prepare
  deriving DecidableEq, Repr

/-- A sector of a RELAY (R105..R108). Its image source is read from the directory and from image (R105). aside
is a pool slot set aside and not yet answered; image is the PREPARE image, whose held mark is set once its
capture write has completed; written says that the last write of the sector came from its PREPARE image. -/
structure RelaySector where
  sector : Nat
  aside : Option Nat
  image : Option Capture
  written : Bool
  verified : Bool
  deriving DecidableEq, Repr

/-- RELAY steps (section 6.8). -/
inductive RelayStep where | prepare | write | verify
  deriving DecidableEq, Repr

/-- A job record (R90, R120). serial is the model's own and never reused (log entry 11). For a SURVEY
cyl is the start cylinder. -/
structure Job where
  serial : Nat
  id : Nat
  kind : JobKind
  drive : DriveNo
  cyl : Fin 512
  head : Fin 4
  endCyl : Fin 512
  curCyl : Nat
  curHead : Nat
  tracksFound : Nat
  accept : Grade
  repeats : Nat
  retain : Bool
  step : Nat
  passes : Nat
  rep : Nat
  exhausted : Bool
  recal : Bool
  tally : Option (Nat × Nat)
  total : Nat
  abandoned : Nat
  seekFails : Nat
  level : TakeLevel
  since : Time
  filed : Time
  state : JobState
  sectors : List SalvageSector
  relay : List RelaySector
  relayStep : RelayStep
  stepPass : Nat
  stale : Bool
  written : Bool
  fatal : Bool
  deriving DecidableEq, Repr

/-- A step of the retry ladder (R94). -/
structure LadderStep where
  shift : Int
  offset : Offset
  recal : Bool
  passes : Nat
  deriving DecidableEq, Repr

/-- The default ladder (R94). -/
def defaultLadder : List LadderStep :=
  [ ⟨0, .zero, false, 2⟩, ⟨-3, .zero, false, 1⟩, ⟨3, .zero, false, 1⟩, ⟨0, .inward, false, 1⟩,
    ⟨0, .outward, false, 1⟩, ⟨0, .zero, true, 2⟩, ⟨-4, .inward, false, 1⟩, ⟨4, .outward, false, 1⟩ ]

/-- Sources of a suspect report (R101). -/
inductive Source where | live | survey | store | relay
  deriving DecidableEq, Repr

/-- A suspect entry (R101). -/
structure Suspect where
  track : Track
  mask : SectorSet
  count : Nat
  first : Time
  last : Time
  source : Source
  deriving DecidableEq, Repr

/-- The recovery engine (R90, R94, R101, R103). -/
structure Engine where
  jobs : List Job
  lastId : Nat
  nextSerial : Nat
  ladder : List LadderStep
  suspects : List Suspect
  auto : Quad Bool
  deriving DecidableEq, Repr

/-- The engine after POWER-UP or RESTART. -/
def Engine.reset : Engine :=
  { jobs := [], lastId := 0, nextSerial := 0, ladder := defaultLadder, suspects := [],
    auto := ⟨false, false, false, false⟩ }

/-- A member of a snapshot (R115): the capture's slot, time and tag, and what was read of it. -/
structure Member where
  slot : Nat
  time : Time
  tag : PassTag
  passNo : Nat
  data : Option (List Word × List Nat)
  deriving DecidableEq, Repr

/-- A graded result on its way to delivery (R121, R124). -/
structure Result where
  rating : Rating
  image : List Word
  confs : List Nat
  deriving DecidableEq, Repr

/-- Phases of a solve in flight: snapshot reads, or the delivery write of a result. -/
inductive SolvePhase where
  | reading
  | delivering (r : Result)
  deriving DecidableEq, Repr

/-- The solve in flight (R113, R115, R123): the pair, K and threshold read at its start, the snapshot and
the three marks. -/
structure Flight where
  job : Nat
  sector : Nat
  k : Nat
  threshold : Nat
  phase : SolvePhase
  snapshot : List Member
  requeue : Bool
  discard : Bool
  superseded : Bool
  deriving DecidableEq, Repr

/-- The solve unit (R113). Pairs are (job serial, sector). -/
structure Solver where
  queue : List (Nat × Nat)
  flight : Option Flight
  k : Nat
  threshold : Nat
  deriving DecidableEq, Repr

/-- The solve unit after POWER-UP or RESTART (R113). -/
def Solver.reset : Solver := { queue := [], flight := none, k := 6, threshold := 8 }

/-- States of a keep slot other than FREE (R128). -/
inductive KeepState where | reserved | held | entry | draining
  deriving DecidableEq, Repr

/-- States of a keep entry other than DAMAGED (R132); a DAMAGED entry records its former one. -/
inductive KeepKind where
  | recovered (r : Rating)
  | diverted
  | placed
  deriving DecidableEq, Repr

/-- A keep entry (R132). damaged says that the state is DAMAGED with kind as the former state. -/
structure KeepEntry where
  addr : Addr
  slot : Nat
  kind : KeepKind
  damaged : Bool
  time : Time
  epoch : Nat
  exported : Bool
  deriving DecidableEq, Repr

/-- One cell access of an operation still to be made (R130). -/
inductive Access where
  | read (slot cell : Nat)
  | write (slot cell : Nat) (data : BitVec 32)
  deriving DecidableEq, Repr

/-- The operations of R130. -/
inductive OpKind where
  | fill (d : DriveNo)
  | commit (d : DriveNo)
  | writeFill (d : DriveNo) (sector : Nat) (fromImage : Bool)
  | capture (d : DriveNo) (buffer : Fin 2)
  | solveRead
  | delivery
  | fetchSector (a : Addr)
  | fetchCapture (job sector : Nat) (c : Capture)
  | storeSector (a : Addr)
  | patch (a : Addr) (n : Nat) (value : Word)
  | copy (a : Addr) (source : Nat)
  deriving DecidableEq, Repr

/-- A store operation (R131): its kind, the slot it holds (a copy also holds its source), when it was
requested, the accesses still to be made, what has been read and with which syndromes, whether a
double error was met, which cells it has written, whether a scrub has spoiled it (R150), and when its
last access was made. -/
structure StoreOp where
  kind : OpKind
  slot : Nat
  at_ : Time
  todo : List Access
  got : List (BitVec 32)
  syn : List Nat
  double : Bool
  wrote : List Nat
  spoiled : Bool
  lastAt : Time
  deriving DecidableEq, Repr

/-- The track store beside the DRAM (chapter 8). keep lists the keep slots that are not FREE; pool lists
the capture slots in use; init is the next cell the initialisation writes, or none when it is done. -/
structure Store where
  keep : List (Nat × KeepState)
  pool : List Nat
  dir : List KeepEntry
  epoch : Nat
  writeRec : List Nat
  ops : List StoreOp
  init : Option Nat
  deriving DecidableEq, Repr

/-- Kinds of a store error (R129). -/
inductive ErrorKind where | single | double
  deriving DecidableEq, Repr

/-- Finders of a store error (R129). -/
inductive Finder where | scrub | fill | solve | fetch | patch | relay
  deriving DecidableEq, Repr

/-- Owners of a slot in the error log (R129). -/
inductive SlotOwner where | keep | capture | free
  deriving DecidableEq, Repr

/-- An entry of the store error log (R151). -/
structure LogEntry where
  kind : ErrorKind
  slot : Nat
  cell : Nat
  syndrome : Nat
  finder : Finder
  owner : SlotOwner
  time : Time
  epoch : Nat
  deriving DecidableEq, Repr

/-- The upkeep record (R145). -/
structure Upkeep where
  tickTime : Time
  pending : Nat
  tickCount : Nat
  interval : Nat
  waiting : Bool
  address : Nat
  log : List LogEntry
  deriving DecidableEq, Repr

/-- The upkeep record after POWER-UP (R145). -/
def Upkeep.reset : Upkeep :=
  { tickTime := 0, pending := 0, tickCount := 0, interval := 128, waiting := false, address := 0,
    log := [] }

/-- Job outcomes (R93) with the reasons of FAILED. -/
inductive Outcome where
  | complete | partialDone | cancelled | driveLost | seekFailed
  | failedUnreadable
  | failedVerify (mask : SectorSet)
  | failedStore
  | failedSeek
  deriving DecidableEq, Repr

/-- What a HOLD_LIMIT notice says was stopped (R83). -/
inductive Stopped where | position | pass | write | none
  deriving DecidableEq, Repr

/-- Effects a STORE notice reports (R152). -/
inductive StoreEffect where
  | entryDamaged (e : KeepEntry)
  | bestDropped (job sector : Nat)
  | captureDiscarded (job sector : Nat)
  | prepareDiscarded (job sector : Nat)
  | spoiled (operation : Nat)
  | none
  deriving DecidableEq, Repr

/-- Keep actions of a RESOLVED SECTOR_RESULT (R127). -/
inductive KeepAction where | created | replaced | keptExisting
  deriving DecidableEq, Repr

/-- Outcomes of a SECTOR_RESULT (R127). -/
inductive SectorOutcome where
  | resolved (r : Rating) (action : KeepAction)
  | provisional (r : Rating) (newBest : Bool)
  | ambiguous (used size count : Nat)
  | misplaced (used : Nat) (h : Header) (reason : HeaderOutcome)
  deriving DecidableEq, Repr

/-- Causes of a BAD_FRAME (R156). -/
inductive BadCause where | length | check | framing | gap | kind
  deriving DecidableEq, Repr

/-- The bodies of the notices (R172, R173). Jobs are named by id. -/
inductive NoticeBody where
  | start (restart : Bool) (retention : Option Bool) (epoch entries : Nat) (initialising : Bool)
  | storeReady (epoch entries : Nat)
  | jobDone (j : Job) (outcome : Outcome)
  | sectorResult (id : Nat) (track : Track) (sector : Nat) (o : SectorOutcome)
  | suspectAdded (s : Suspect)
  | suspectDropped (track : Track) (mask : SectorSet) (source : Source)
  | suspectFiled (s : Suspect) (id : Nat)
  | ready (offline : Option Nat)
  | offline (left : Owner) (served : Option Nat)
  | speedDoubt (indexLost : Bool) (average : Option Nat)
  | speedGood (average : Nat)
  | indexLost (last : Time) (rev : Nat)
  | indexBack (since : Nat) (rev : Nat)
  | slip (header : Bool) (before after : Nat) (suppressed : Option Bool) (rev slips : Nat)
  | seekFault (cyl : Fin 512) (head : Fin 4)
  | holdLimit (served : Option Nat) (what : Stopped) (start : Time)
  | writeCheckMismatch (a : Addr) (ctrl recomputed : Word)
  | liveMisplaced (a : Addr) (h : Header) (reason : HeaderOutcome)
  | store (e : LogEntry) (effect : StoreEffect)
  | badFrame (cause : BadCause) (kind tag : Option Byte) (length : Option Nat)
  | requestDropped (kind tag : Byte)
  | lineBreak
  deriving DecidableEq, Repr

/-- A notice before it is queued: its drive (none sends 0xFF), time and body (R172). -/
structure Note where
  drive : Option DriveNo
  time : Time
  body : NoticeBody
  deriving DecidableEq, Repr

/-- A queued notice with the lost-notice count it carries (R160). -/
structure Notice where
  lost : Nat
  note : Note
  deriving DecidableEq, Repr

/-- Status codes of a reply (R164). -/
inductive Status where
  | ok | busy | badRequest | range | notReady | noRoom | conflict | notFound | denied | damaged
  deriving DecidableEq, Repr

/-- What an owning block answers to the request in hand (R158, R164). -/
structure Answer where
  status : Status
  adjusted : Bool
  fields : List Byte
  deriving DecidableEq, Repr

/-- A reply on the reply list (R157, R158). -/
structure Reply where
  kind : Byte
  tag : Byte
  answer : Answer
  deriving DecidableEq, Repr

/-- A request in the request queue (R155, R157). -/
structure Request where
  kind : Byte
  tag : Byte
  payload : List Byte
  deriving DecidableEq, Repr

/-- The frame on the transmit line (R159). -/
inductive TxFrame where
  | reply (r : Reply)
  | notice (n : Notice)
  deriving DecidableEq, Repr

/-- Framer phases (R153). -/
inductive FramerPhase where | hunt | length | kind | tag | payload | check | broken
  deriving DecidableEq, Repr

/-- The framer and the frame in progress (R153, R155). lenHigh and checkHigh hold a first byte taken. -/
structure Framer where
  phase : FramerPhase
  lenHigh : Option Byte
  length : Option Nat
  kind : Option Byte
  tag : Option Byte
  payload : List Byte
  check : Word
  checkHigh : Option Byte
  lastByte : Option Time
  deriving DecidableEq, Repr

/-- The framer in HUNT with no frame in progress. -/
def Framer.hunting : Framer :=
  { phase := .hunt, lenHigh := none, length := none, kind := none, tag := none, payload := [],
    check := 0, checkHigh := none, lastByte := none }

/-- Where the request in hand stands (R158): not yet handled, being handled, or answered. -/
inductive Hand where | fresh | handling | replied
  deriving DecidableEq, Repr

/-- Where a RESTART stands (R162): none, its reply not yet sent in full, or the reset due. -/
inductive RestartPhase where | none | replying | due
  deriving DecidableEq, Repr

/-- The link record (R153). -/
structure Link where
  rate : Nat
  framer : Framer
  queue : List Request
  hand : Hand
  dropReply : Bool
  restart : RestartPhase
  replies : List Reply
  tx : Option TxFrame
  notices : List Notice
  lost : Nat
  deriving DecidableEq, Repr

/-- Everything but the service link, the DRAM cells and the command queue. -/
structure Board where
  now : Time
  strap1 : Bool
  strap2 : Bool
  retention : Bool
  drives : Quad Drive
  re : Engine
  su : Solver
  ts : Store
  sk : Upkeep
  /-- a FILE_JOB that waits for a write gate to drop (R35) -/
  filing : Option (List Byte)
  /-- notices raised in the step in progress (the model's own; empty between steps) -/
  out : List Note
  /-- the answer of the request in hand (the model's own; none between steps) -/
  answer : Option Answer
  /-- an examination is asked for (R103; the model's own; false between steps) -/
  exam : Bool
  /-- a solve has ended in the step in progress (R124; the model's own; false between steps) -/
  solveOver : Bool
  deriving DecidableEq, Repr

/-- A store cell as it stands: the two words last written and which of its 39 bits are wrong (R129). -/
structure DramCell where
  data : BitVec 32
  wrong : CellBits
  deriving DecidableEq, Repr

/-- What an unlisted cell reads as: two zero words, no wrong bit (log entry 8). -/
def DramCell.zero : DramCell := { data := 0, wrong := 0 }

/-- The DRAM cells as (cell address, cell) pairs in canonical form. -/
abbrev Dram := List (Nat × DramCell)

/-- The 7100 and the commands waiting for it. -/
structure State where
  board : Board
  link : Link
  dram : Dram
  pending : List Instr
  deriving DecidableEq, Repr

/-- A drive port after a POWER-UP at which its drive reports READY or not. -/
def Drive.reset (now : Time) (ready : Bool) : Drive :=
  { profile := .default,
    pins := { ready := ready, onCylinder := true, seekError := false, writeProtect := false,
              ctrlGate := false, head := 0 },
    rt := .reset, rc := .reset, lp := .reset, da := .reset now ready }

/-- The START notice of a POWER-UP (R153). -/
def startNotice (retention : Bool) (epoch entries : Nat) (initialising : Bool) (now : Time) : Notice :=
  { lost := 0,
    note := { drive := none, time := now,
              body := .start false (some retention) epoch entries initialising } }

/-- The machine right after a POWER-UP without good retention, both straps low, every drive READY
(R9, R41, R53, R70, R90, R113, R143, R145, R153; log entry 1 names the inputs chosen). -/
def State.reset : State :=
  { board :=
      { now := 0, strap1 := false, strap2 := false, retention := false,
        drives := ⟨.reset 0 true, .reset 0 true, .reset 0 true, .reset 0 true⟩,
        re := .reset, su := .reset,
        ts := { keep := [], pool := [], dir := [], epoch := 1, writeRec := [], ops := [],
                init := some 0 },
        sk := .reset, filing := none, out := [], answer := none, exam := false, solveOver := false },
    link :=
      { rate := 19200, framer := .hunting, queue := [], hand := .fresh, dropReply := false,
        restart := .none, replies := [], tx := none, notices := [startNotice false 1 0 true 0],
        lost := 0 },
    dram := [], pending := [] }

end Sys2Proof.Machine
end

