-- ==== Sys2Proof/Machine/Image.lean ====
section
/-! DEFINITION. The sector image, its check word, its header (chapter 1), and the layout of a slot's cells
(R128). -/

namespace Sys2Proof.Machine

/-- One step of the rotate-add sum (R6). -/
def rotAdd (c w : Word) : Word := c.rotateLeft 1 + w

/-- The rotate-add sum of a list of words (R6). -/
def rotSum (ws : List Word) : Word := ws.foldl rotAdd 0

/-- The rotate-add of bytes, with a 16-bit running value (R154). -/
def rotByte (c : Word) (b : Byte) : Word := rotAdd c (b.setWidth 16)

/-- A list cut or filled with a given value to n elements. -/
def fitTo {α : Type} (x : α) : Nat → List α → List α
  | 0, _ => []
  | n + 1, [] => x :: fitTo x n []
  | n + 1, a :: as => a :: fitTo x n as

/-- An image is sound when the sum of words 0..129 equals word 130 (R6). -/
def soundImage (img : List Word) : Bool := rotSum (img.take 130) = img.getD 130 0

/-- The address word of a cylinder and head, format field 0 (section 11.9). -/
def addressWord (cyl : Fin 512) (head : Fin 4) : Word :=
  BitVec.ofNat 16 (cyl.val * 128 + head.val * 32)

/-- The identity word of a sector number and volume number (section 11.9). -/
def identityWord (sector : Fin 16) (vol : BitVec 12) : Word :=
  BitVec.ofNat 16 (sector.val * 4096) + vol.setWidth 16

/-- The volume number the part builds headers with (R8). -/
def buildVolume (p : Profile) : BitVec 12 := p.volume.getD 0

/-- The words of the header the part builds for an address and a volume number (R8). -/
def buildHeader (a : Addr) (vol : BitVec 12) : List Word :=
  [addressWord a.cyl a.head, identityWord a.sector vol]

/-- The image the part makes for an address, a volume number and data words (R8). -/
def buildImage (a : Addr) (vol : BitVec 12) (data : List Word) : List Word :=
  let body := buildHeader a vol ++ fitTo 0 128 data
  body ++ [rotSum body]

/-- The data words of an image. -/
def dataWords (img : List Word) : List Word := (img.drop 2).take 128

/-- The header fields of words 0 and 1 (R5). -/
def readHeader (w0 w1 : Word) : Header :=
  { cyl := (w0.extractLsb' 7 9).toNat, head := (w0.extractLsb' 5 2).toNat,
    format := (w0.extractLsb' 0 5).toNat, sector := (w1.extractLsb' 12 4).toNat,
    volume := (w1.extractLsb' 0 12).toNat }

/-- The header of an image. -/
def imageHeader (img : List Word) : Header := readHeader (img.getD 0 0) (img.getD 1 0)

/-- The header test against an expected cylinder, head and sector and a profile volume (R7). -/
def headerTest (p : Profile) (cyl head sector : Nat) (h : Header) : HeaderOutcome :=
  if h.cyl ≠ cyl ∨ h.head ≠ head ∨ h.sector ≠ sector ∨ h.format ≠ 0 then .address
  else
    match p.volume with
    | none => .matched
    | some v => if h.volume = v.toNat then .matched else .volume

/-- Whether a cylinder, head and sector lie within a profile (R13). -/
def withinProfile (p : Profile) (cyl head sector : Nat) : Bool :=
  cyl < p.cylinders && head < p.heads && sector < p.sectors

/-- Whether a track lies within a profile (R13). -/
def trackWithin (p : Profile) (cyl head : Nat) : Bool := cyl < p.cylinders && head < p.heads

/-- The cells of words that follow a preamble: 32 zeros, the sync cell, then each word from bit 15 down (R2). The
words of a whole image give a recorded or emitted sector (R4, R28), the two words of a header what LP emits in
a diverted write's slot (R38). -/
def sectorCells (words : List Word) : List Bool :=
  List.replicate 32 false ++ [true] ++
    words.flatMap fun w => (List.range 16).map fun i => w.getLsbD (15 - i)

/-- Two words as the data of one cell, the first word high (R128, log entry 9). -/
def pairCell (a b : Word) : BitVec 32 := a ++ b

/-- The 66 image cells of an image: words 2c and 2c+1, then word 130 and a zero pad (R128). -/
def packWords (img : List Word) : List (BitVec 32) :=
  (List.range Config.imageCells).map fun c => pairCell (img.getD (2 * c) 0) (img.getD (2 * c + 1) 0)

/-- The words of 66 image cells (R128). -/
def unpackWords (cells : List (BitVec 32)) : List Word :=
  (List.range Config.imageWords).map fun i =>
    let c := cells.getD (i / 2) 0
    if i % 2 = 0 then c.extractLsb' 16 16 else c.extractLsb' 0 16

/-- The 17 quality cells of 131 per-word values, eight to a cell in word order, the first value in the
highest four bits (R128, log entry 9). -/
def packValues (vals : List Nat) : List (BitVec 32) :=
  (List.range 17).map fun c =>
    (List.range 8).foldl (fun (acc : BitVec 32) i =>
      (acc <<< 4) ||| BitVec.ofNat 32 (vals.getD (8 * c + i) 0 % 16)) 0

/-- The per-word values of 17 quality cells (R128). -/
def unpackValues (cells : List (BitVec 32)) : List Nat :=
  (List.range Config.imageWords).map fun i =>
    ((cells.getD (i / 8) 0).extractLsb' (4 * (7 - i % 8)) 4).toNat

/-- The writes of all 83 cells of a slot (R128). -/
def slotWrites (slot : Nat) (img : List Word) (vals : List Nat) : List Access :=
  (packWords img ++ packValues vals).zipIdx.map fun (w, c) => .write slot c w

/-- The reads of the first n cells of a slot. -/
def slotReads (slot n : Nat) : List Access := (List.range n).map fun c => .read slot c

/-- The 131 values 15 of a DIVERTED or PLACED image (R128). -/
def fullValues : List Nat := List.replicate Config.imageWords 15

end Sys2Proof.Machine
end

