-- ==== Sys2Proof/Machine/Memory.lean ====
section
/-! DEFINITION. The store DRAM: its canonical list of cells, and how a cell reads (R128, R129). -/

namespace Sys2Proof.Machine

/-- The cell at an address; an unlisted cell is DramCell.zero (log entry 8). -/
def dramGet : Dram → Nat → DramCell
  | [], _ => .zero
  | (b, c) :: rest, a => if a = b then c else dramGet rest a

/-- The list without an address. -/
def dramErase : Dram → Nat → Dram
  | [], _ => []
  | (b, c) :: rest, a => if a = b then rest else (b, c) :: dramErase rest a

/-- The list with an address at a cell other than DramCell.zero, in its place by address. -/
def dramInsert : Dram → Nat → DramCell → Dram
  | [], a, c => [(a, c)]
  | (b, x) :: rest, a, c =>
    if a < b then (a, c) :: (b, x) :: rest
    else if a = b then (a, c) :: rest
    else (b, x) :: dramInsert rest a c

/-- The DRAM with one cell replaced, in canonical form. -/
def dramPut (m : Dram) (a : Nat) (c : DramCell) : Dram :=
  if c = .zero then dramErase m a else dramInsert m a c

/-- Addresses strictly rising from a lower bound, and no entry that an unlisted cell reads as. -/
def dramWfFrom : Nat → Dram → Bool
  | _, [] => true
  | low, (a, c) :: rest => low ≤ a && c ≠ .zero && dramWfFrom (a + 1) rest

/-- The canonical form of the DRAM list. -/
def dramWf (m : Dram) : Bool := dramWfFrom 0 m

/-- The cell address of a slot's cell (R128). -/
def cellAddress (slot cell : Nat) : Nat := slot * Config.slotCells + cell

/-- Classes of a cell read (R129), with the words the reader receives and the syndrome. -/
inductive CellRead where
  | clean (data : BitVec 32)
  | single (data : BitVec 32) (syndrome : Nat)
  | double (syndrome : Nat)
  deriving DecidableEq, Repr

/-- How many of the 39 bits are wrong. -/
def wrongCount (e : CellBits) : Nat := (List.range 39).countP e.getLsbD

/-- The stored words with their wrong bits. -/
def storedData (c : DramCell) : BitVec 32 := c.data ^^^ c.wrong.setWidth 32

/-- The class of a cell read (R129). One wrong bit is corrected, two are a double error, and three or
more read by the syndrome they form (log entry 6). -/
def classify (c : DramCell) : CellRead :=
  match wrongCount c.wrong with
  | 0 => .clean c.data
  | 1 => .single c.data ((Config.eccFewSyndrome c.wrong).val + 1)
  | 2 => .double ((Config.eccFewSyndrome c.wrong).val + 1)
  | _ =>
    let syn := Config.eccSyndrome c.wrong
    if syn = 0 then .clean (storedData c)
    else if Config.eccReadsSingle syn then
      .single (storedData c ^^^ (BitVec.twoPow 39 (Config.eccBitOf syn).val).setWidth 32) syn.toNat
    else .double syn.toNat

/-- A cell after further bits have gone wrong. -/
def disturb (c : DramCell) (wrong : CellBits) : DramCell := { c with wrong := c.wrong ^^^ wrong }

/-- A cell just written (R129). -/
def writtenCell (data : BitVec 32) : DramCell := { data := data, wrong := 0 }

end Sys2Proof.Machine
end

