-- ==== Sys2Proof/Machine/Vote.lean ====
section
/-! DEFINITION. The vote, the weak-bit search, grading and rank (R116..R122). -/

namespace Sys2Proof.Machine

/-- What one capture says of one bit: its bit and its word's quality. -/
abbrev Ballot := Bool × Nat

/-- The sum of R116. -/
def ballotSum (bs : List Ballot) : Int :=
  bs.foldl (fun (acc : Int) b => if b.1 then acc + (b.2 : Int) else acc - (b.2 : Int)) 0

/-- The earliest ballot of the highest quality. -/
def topBallot : List Ballot → Ballot → Ballot
  | [], best => best
  | b :: bs, best => topBallot bs (if best.2 < b.2 then b else best)

/-- The voted bit and its confidence (R116). -/
def voteBit (bs : List Ballot) : Bool × Nat :=
  let total := ballotSum bs
  let bit :=
    if 0 < total then true
    else if total < 0 then false
    else
      match bs with
      | [] => false
      | b :: rest => (topBallot rest b).1
  (bit, total.natAbs)

/-- The ballots on bit b of word i in snapshot order. -/
def ballots (snap : List (List Word × List Nat)) (i b : Nat) : List Ballot :=
  snap.map fun c => ((c.1.getD i 0).getLsbD b, c.2.getD i 0)

/-- One bit of the voted image with its place: word index, bit position, value, confidence. -/
structure VotedBit where
  word : Nat
  bit : Nat
  value : Bool
  conf : Nat
  deriving DecidableEq, Repr

/-- The 2,096 voted bits, lower word first, higher bit first (R116, R118). -/
def voteAll (snap : List (List Word × List Nat)) : List VotedBit :=
  (List.range Config.imageWords).flatMap fun i =>
    (List.range 16).map fun j =>
      let v := voteBit (ballots snap i (15 - j))
      { word := i, bit := 15 - j, value := v.1, conf := v.2 }

/-- The voted image (R116). -/
def votedImage (bits : List VotedBit) : List Word :=
  (List.range Config.imageWords).map fun i =>
    ((bits.drop (16 * i)).take 16).foldl
      (fun (w : Word) v => (w <<< 1) ||| (BitVec.ofBool v.value).setWidth 16) 0

/-- The first of the least confidence, and the others in their order. -/
def takeWeakest : List VotedBit → Option (VotedBit × List VotedBit)
  | [] => none
  | v :: vs =>
    match takeWeakest vs with
    | none => some (v, [])
    | some (w, rest) => if w.conf < v.conf then some (w, v :: rest) else some (v, vs)

/-- The first K bits of the ranking of R118. -/
def weakBits : Nat → List VotedBit → List VotedBit
  | 0, _ => []
  | k + 1, vs =>
    match takeWeakest vs with
    | none => []
    | some (w, rest) => w :: weakBits k rest

/-- The bits a mask names (R118). -/
def maskBits (weak : List VotedBit) (mask : Nat) : List VotedBit :=
  (weak.zipIdx.filter fun (_, j) => mask.testBit j).map (·.1)

/-- An image with the named bits inverted. -/
def flipBits (img : List Word) (bits : List VotedBit) : List Word :=
  bits.foldl (fun im v => im.modify v.word (· ^^^ BitVec.twoPow 16 v.bit)) img

/-- The masks of size m over K positions in ascending value (R118). -/
def masksOfSize (k m : Nat) : List Nat :=
  (List.range (2 ^ k)).filter fun mask => (List.range k).countP mask.testBit = m

/-- The sound masks of size m (R119). -/
def soundMasks (img : List Word) (weak : List VotedBit) (k m : Nat) : List Nat :=
  (masksOfSize k m).filter fun mask => soundImage (flipBits img (maskBits weak mask))

/-- How a search ends (R119). -/
inductive SearchEnd where
  | matched (flipped : List VotedBit) (image : List Word)
  | ambiguous (size count : Nat)
  | unmatched
  deriving DecidableEq, Repr

/-- The search over sizes m, m+1, ... for the given number of sizes (R119). -/
def searchSizes (img : List Word) (weak : List VotedBit) (k : Nat) : Nat → Nat → SearchEnd
  | 0, _ => .unmatched
  | n + 1, m =>
    match soundMasks img weak k m with
    | [] => searchSizes img weak k n (m + 1)
    | [mask] => .matched (maskBits weak mask) (flipBits img (maskBits weak mask))
    | l => .ambiguous m l.length

/-- The check of the voted image and the search (R117..R119). -/
def search (bits : List VotedBit) (k : Nat) : SearchEnd :=
  let img := votedImage bits
  if soundImage img then .matched [] img
  else searchSizes img (weakBits k bits) k k 1

/-- The bits of the voted image that a match did not invert. -/
def keptBits (bits flipped : List VotedBit) : List VotedBit :=
  bits.filter fun v => !flipped.any fun f => f.word = v.word ∧ f.bit = v.bit

/-- The least confidence of the bits a match did not invert (R121). -/
def minConfidence (bits flipped : List VotedBit) : Nat :=
  ((keptBits bits flipped).map (·.conf)).foldl min 56

/-- The grade (R121). -/
def gradeOf (flips minConf threshold : Nat) : Grade :=
  if 0 < flips then .c else if threshold ≤ minConf then .a else .b

/-- The word confidences (R121). -/
def wordConfidences (bits flipped : List VotedBit) : List Nat :=
  (List.range Config.imageWords).map fun i =>
    if flipped.any fun f => f.word = i then 0
    else ((((bits.drop (16 * i)).take 16).map (·.conf)).foldl min 15)

/-- How the computation of a complete snapshot ends (R115..R121). -/
inductive SolveEnd where
  | noCaptures
  | unmatched
  | ambiguous (size count : Nat)
  | misplaced (h : Header) (reason : HeaderOutcome)
  | graded (r : Result)
  deriving DecidableEq, Repr

/-- Vote, check, search, header test and grading of a complete snapshot (R115..R121). -/
def solveSnapshot (p : Profile) (cyl head sector k threshold : Nat)
    (snap : List (List Word × List Nat)) : SolveEnd :=
  if snap.isEmpty then .noCaptures
  else
    let bits := voteAll snap
    match search bits k with
    | .unmatched => .unmatched
    | .ambiguous m n => .ambiguous m n
    | .matched flipped img =>
      let h := imageHeader img
      match headerTest p cyl head sector h with
      | .matched =>
        let mc := minConfidence bits flipped
        .graded
          { rating := { grade := gradeOf flipped.length mc threshold, flips := flipped.length,
                        minConf := mc, used := snap.length },
            image := img, confs := wordConfidences bits flipped }
      | reason => .misplaced h reason

/-- A as 0, B as 1, C as 2 (R163). -/
def Grade.code : Grade → Nat
  | .a => 0
  | .b => 1
  | .c => 2

/-- Whether a grade is at or better than another (R23, R125). -/
def Grade.meets (g accept : Grade) : Bool := g.code ≤ accept.code

/-- Whether one rating ranks above another on the first three keys of R122, or equals it there. -/
def Rating.cmp (x y : Rating) : Ordering :=
  if x.grade.code ≠ y.grade.code then compare y.grade.code x.grade.code
  else if x.flips ≠ y.flips then compare y.flips x.flips
  else compare x.minConf y.minConf

end Sys2Proof.Machine
end

