-- ==== Sys2Proof/Machine/Ops.lean ====
section
/-! DEFINITION. The shared operations over the board: drive records, notices, jobs, slots, store operations,
and the keep directory. -/

namespace Sys2Proof.Machine

/-- The record of drive d. -/
def Board.drv (b : Board) (d : DriveNo) : Drive := b.drives.get d

/-- The board with the record of drive d changed. -/
def Board.modDrv (b : Board) (d : DriveNo) (f : Drive → Drive) : Board :=
  { b with drives := b.drives.set d (f (b.drives.get d)) }

/-- The board with LP's records of drive d changed. -/
def Board.modLp (b : Board) (d : DriveNo) (f : LivePath → LivePath) : Board :=
  b.modDrv d fun x => { x with lp := f x.lp }

/-- The board with the arbiter of drive d changed. -/
def Board.modDa (b : Board) (d : DriveNo) (f : Arbiter → Arbiter) : Board :=
  b.modDrv d fun x => { x with da := f x.da }

/-- The board with the channel of drive d changed. -/
def Board.modRc (b : Board) (d : DriveNo) (f : Channel → Channel) : Board :=
  b.modDrv d fun x => { x with rc := f x.rc }

/-- The board with the tracker of drive d changed. -/
def Board.modRt (b : Board) (d : DriveNo) (f : Tracker → Tracker) : Board :=
  b.modDrv d fun x => { x with rt := f x.rt }

/-- The board with the lines of drive d changed. -/
def Board.modPins (b : Board) (d : DriveNo) (f : Pins → Pins) : Board :=
  b.modDrv d fun x => { x with pins := f x.pins }

/-- The time since a reading, modulo 2^40 (00, Times). -/
def Board.since (b : Board) (t : Time) : Nat := (b.now - t).toNat

/-- A notice raised now (R172). -/
def Board.note (b : Board) (d : Option DriveNo) (body : NoticeBody) : Board :=
  { b with out := b.out ++ [{ drive := d, time := b.now, body := body }] }

/-- The answer of the request in hand (R158). -/
def Board.reply (b : Board) (status : Status) (adjusted : Bool) (fields : List Byte) : Board :=
  { b with answer := some { status := status, adjusted := adjusted, fields := fields } }

/-- A refusal of the request in hand: no further fields (R164). -/
def Board.deny (b : Board) (status : Status) : Board := b.reply status false []

/-- The track of a sector address. -/
def Addr.track (a : Addr) : Track := { drive := a.drive, cyl := a.cyl, head := a.head }

/-- The track of a job (R90); for a SURVEY its start. -/
def Job.track (j : Job) : Track := { drive := j.drive, cyl := j.cyl, head := j.head }

/-- The sector address of sector k of a track. -/
def Track.addr (t : Track) (k : Nat) : Addr :=
  { drive := t.drive, cyl := t.cyl, head := t.head, sector := Fin.ofNat 16 k }

/-- The live job with a serial. -/
def Board.job (b : Board) (serial : Nat) : Option Job := b.re.jobs.find? (·.serial = serial)

/-- The live job with an id (R90). -/
def Board.jobById (b : Board) (id : Nat) : Option Job := b.re.jobs.find? (·.id = id)

/-- A job as the drive it is served on names it (R70). -/
def Job.ref (j : Job) : JobRef := { serial := j.serial, id := j.id }

/-- The live job that drive d serves. -/
def Board.servedJob (b : Board) (d : DriveNo) : Option Job := (b.drv d).da.served.bind fun r => b.job r.serial

/-- The id of the job with a serial. -/
def Board.idOf (b : Board) (serial : Nat) : Nat := ((b.job serial).map (·.id)).getD 0

/-- The board with one live job changed. -/
def Board.modJob (b : Board) (serial : Nat) (f : Job → Job) : Board :=
  { b with re := { b.re with jobs := b.re.jobs.map fun j => if j.serial = serial then f j else j } }

/-- Whether a job works on a track, SALVAGE or RELAY (R33, R101). -/
def Job.onTrack (j : Job) (t : Track) : Bool := j.kind ≠ .survey && j.track = t

/-- The live SALVAGE or RELAY job of a track (R91 allows one). -/
def Board.trackJob (b : Board) (t : Track) : Option Job := b.re.jobs.find? (·.onTrack t)

/-- A SALVAGE sector record of a job. -/
def Job.sectorRec (j : Job) (k : Nat) : Option SalvageSector := j.sectors.find? (·.sector = k)

/-- A RELAY sector record of a job. -/
def Job.relayRec (j : Job) (k : Nat) : Option RelaySector := j.relay.find? (·.sector = k)

/-- The job with one SALVAGE sector record changed. -/
def Job.modSector (j : Job) (k : Nat) (f : SalvageSector → SalvageSector) : Job :=
  { j with sectors := j.sectors.map fun r => if r.sector = k then f r else r }

/-- The job with one RELAY sector record changed. -/
def Job.modRelay (j : Job) (k : Nat) (f : RelaySector → RelaySector) : Job :=
  { j with relay := j.relay.map fun r => if r.sector = k then f r else r }

/-- Unresolved statuses (R93). -/
def SectorStatus.unresolved : SectorStatus → Bool
  | .pending | .provisional | .ambiguous | .misplaced => true
  | .resolved | .superseded => false

/-- Whether a job has an unresolved target (R93). -/
def Job.hasUnresolved (j : Job) : Bool := j.sectors.any (·.status.unresolved)

/-- The set of a job's sectors that satisfy a test (R163). -/
def sectorSet (ks : List Nat) : SectorSet := ks.foldl (fun m k => m ||| BitVec.twoPow 16 k) 0

/-- The target set of a job (R90). -/
def Job.target (j : Job) : SectorSet :=
  match j.kind with
  | .salvage => sectorSet (j.sectors.map (·.sector))
  | .relay => sectorSet (j.relay.map (·.sector))
  | .survey => 0

/-! ### Keep slots and capture slots (R128, R133) -/

/-- The least number from n on that an ascending list does not hold. -/
def firstGap : Nat → List Nat → Nat
  | n, [] => n
  | n, u :: us => if u < n then firstGap n us else if u = n then firstGap (n + 1) us else n

/-- An ascending list with a number put in its place. -/
def insertNat (n : Nat) : List Nat → List Nat
  | [] => [n]
  | u :: us => if n < u then n :: u :: us else if n = u then u :: us else u :: insertNat n us

/-- The states of the keep slots with one slot given a state. -/
def putKeep (slot : Nat) (st : KeepState) : List (Nat × KeepState) → List (Nat × KeepState)
  | [] => [(slot, st)]
  | (u, x) :: us =>
    if slot < u then (slot, st) :: (u, x) :: us
    else if slot = u then (slot, st) :: us
    else (u, x) :: putKeep slot st us

/-- The state of a keep slot; none is FREE. -/
def Store.keepState (ts : Store) (slot : Nat) : Option KeepState :=
  (ts.keep.find? (·.1 = slot)).map (·.2)

/-- The lowest-numbered FREE keep slot; none while the store is initialising (R34, R128). -/
def Store.freeKeepSlot (ts : Store) : Option Nat :=
  if ts.init.isSome then none
  else
    let n := firstGap 0 (ts.keep.map (·.1))
    if n < Config.keepSlots then some n else none

/-- Free keep slots (R133); none while the store is initialising (R34). -/
def Store.freeCount (ts : Store) : Nat :=
  if ts.init.isSome then 0 else Config.keepSlots - ts.keep.length

/-- The recovery engine's reservation count: the RESERVED slots (R133). -/
def Store.reservations (ts : Store) : Nat := ts.keep.countP (·.2 = .reserved)

/-- The lowest-numbered FREE capture slot (R128). -/
def Store.freePoolSlot (ts : Store) : Option Nat :=
  let n := firstGap Config.keepSlots ts.pool
  if n < Config.allSlots then some n else none

/-- The board with a keep slot given a state. -/
def Board.setKeep (b : Board) (slot : Nat) (st : KeepState) : Board :=
  { b with ts := { b.ts with keep := putKeep slot st b.ts.keep } }

/-- The board with a keep slot FREE; the examination of R103 follows. -/
def Board.eraseKeep (b : Board) (slot : Nat) : Board :=
  { b with ts := { b.ts with keep := b.ts.keep.filter (·.1 ≠ slot) }, exam := true }

/-- The board with a capture slot in use. -/
def Board.usePool (b : Board) (slot : Nat) : Board :=
  { b with ts := { b.ts with pool := insertNat slot b.ts.pool } }

/-- Whether a capture buffer is being written into a slot of a job (R65). -/
def CaptureBuffer.writesFor (x : CaptureBuffer) (serial slot : Nat) : Bool :=
  x.state = .writing && x.who.job = serial && x.who.slot = some slot

/-- The buffer, its slot no longer its own where it is being written into that slot of a job. -/
def CaptureBuffer.disown (x : CaptureBuffer) (serial slot : Nat) : CaptureBuffer :=
  if x.writesFor serial slot then { x with who := { x.who with slot := none } } else x

/-- The board with no capture write of a job owning a slot: the slot has been freed before the write's end, and may
be another's by then (R65, R128). -/
def Board.disown (b : Board) (serial slot : Nat) : Board :=
  ([0, 1, 2, 3] : List DriveNo).foldl (fun b d => b.modRc d fun rc =>
    { rc with buf0 := rc.buf0.disown serial slot, buf1 := rc.buf1.disown serial slot }) b

/-- The board with a capture slot FREE (R128). -/
def Board.freePool (b : Board) (slot : Nat) : Board :=
  { b with ts := { b.ts with pool := b.ts.pool.filter (· ≠ slot) } }

/-! ### Store operations (R131) -/

/-- Whether an operation holds a slot. -/
def StoreOp.holds (op : StoreOp) (slot : Nat) : Bool :=
  op.slot = slot ||
    match op.kind with
    | .copy _ source => source = slot
    | _ => false

/-- Whether an operation has begun to write a slot (R142). -/
def StoreOp.writes (op : StoreOp) (slot : Nat) : Bool := op.slot = slot && !op.wrote.isEmpty

/-- Whether some operation holds a slot. -/
def Store.slotHeld (ts : Store) (slot : Nat) : Bool := ts.ops.any (·.holds slot)

/-- An operation requested now. -/
def Board.request (b : Board) (kind : OpKind) (slot : Nat) (todo : List Access) : Board :=
  { b with ts := { b.ts with ops := b.ts.ops ++
      [{ kind := kind, slot := slot, at_ := b.now, todo := todo, got := [], syn := [], double := false,
         wrote := [], spoiled := false, lastAt := b.now }] } }

/-- The operation of a kind in progress. -/
def Store.op (ts : Store) (kind : OpKind) : Option StoreOp := ts.ops.find? (·.kind = kind)

/-- The operation of a kind whose last access has been made. -/
def Store.doneOp (ts : Store) (kind : OpKind) : Option StoreOp :=
  ts.ops.find? fun op => op.kind = kind && op.todo.isEmpty

/-- The board without the operations that satisfy a test: their holds end, DRAINING slots that no
operation holds become FREE (R131), and the slots they were writing leave the write record (R142). -/
def Board.dropOps (b : Board) (p : StoreOp → Bool) : Board :=
  let gone := b.ts.ops.filter p
  let ops := b.ts.ops.filter fun op => !p op
  let keep := b.ts.keep.filter fun x => !(x.2 = .draining && !ops.any (·.holds x.1))
  { b with
    ts := { b.ts with
            ops := ops, keep := keep,
            writeRec := b.ts.writeRec.filter fun s => !gone.any (·.writes s) }
    exam := b.exam || keep.length ≠ b.ts.keep.length }

/-- Whether a diversion in progress holds a keep slot (R37). -/
def Board.divertHolds (b : Board) (slot : Nat) : Bool :=
  let has (d : Drive) : Bool := d.lp.diversion.any (·.slot = slot)
  has b.drives.d0 || has b.drives.d1 || has b.drives.d2 || has b.drives.d3

/-- A keep slot let go: HELD while a diversion holds it, DRAINING while an operation does, else FREE
(R37, R131, R133). -/
def Board.letGo (b : Board) (slot : Nat) : Board :=
  if b.divertHolds slot then b.setKeep slot .held
  else if b.ts.slotHeld slot then b.setKeep slot .draining
  else b.eraseKeep slot

/-! ### The keep directory (R132) -/

/-- The place of a sector address in the directory's order. -/
def Addr.key (a : Addr) : Nat := ((a.drive.val * 512 + a.cyl.val) * 4 + a.head.val) * 16 + a.sector.val

/-- The entry at an address. -/
def Store.entry (ts : Store) (a : Addr) : Option KeepEntry := ts.dir.find? (·.addr = a)

/-- The entry whose slot is the given one. -/
def Store.entryOfSlot (ts : Store) (slot : Nat) : Option KeepEntry := ts.dir.find? (·.slot = slot)

/-- The directory with an entry put in its place, replacing one of the same address. -/
def dirInsert (e : KeepEntry) : List KeepEntry → List KeepEntry
  | [] => [e]
  | x :: xs =>
    if e.addr.key < x.addr.key then e :: x :: xs
    else if e.addr.key = x.addr.key then e :: xs
    else x :: dirInsert e xs

/-- Whether an entry serves substitution under a substitution setting and a serve grade (R23). -/
def KeepEntry.serves (e : KeepEntry) (sub : Bool) (grade : Grade) : Bool :=
  sub && !e.damaged &&
    match e.kind with
    | .recovered r => r.grade.meets grade
    | .diverted | .placed => true

/-- Whether an entry is RECOVERED, DIVERTED or PLACED (R105). -/
def KeepEntry.usable (e : KeepEntry) : Bool := !e.damaged

/-- Whether an entry's state is DIVERTED. -/
def KeepEntry.isDiverted (e : KeepEntry) : Bool := !e.damaged && e.kind = .diverted

end Sys2Proof.Machine
end

