-- ==== Sys2Proof/Machine/LiveOps.lean ====
section
/-! DEFINITION. Shared operations of the live path: emit-buffer fills, the choice to relay a read, pool
slots set aside for captures, and the changes of keep entries with their effect on the emit buffers. -/

namespace Sys2Proof.Machine

/-- The fill of drive d withdrawn (R26, R131). -/
def Board.abandonFill (b : Board) (d : DriveNo) : Board := b.dropOps fun op => op.kind = .fill d

/-- A fill of drive d's emit buffer for an address from a keep slot; one in progress is withdrawn (R24). -/
def Board.startFill (b : Board) (d : DriveNo) (a : Addr) (slot : Nat) : Board :=
  ((b.abandonFill d).modLp d fun lp =>
      { lp with buf := { state := .filling, addr := a, image := [] } }).request (.fill d) slot
    (slotReads slot Config.imageCells)

/-- Drive d's emit buffer INVALID and its fill withdrawn (R24, R26). -/
def Board.voidBuffer (b : Board) (d : DriveNo) : Board :=
  (b.abandonFill d).modLp d fun lp => { lp with buf := .empty }

/-- One pool slot set aside as a pending entry of a SALVAGE sector's set, or none (R96, R98, R100). -/
def Board.setAside (b : Board) (serial k : Nat) : Board × Option Nat :=
  match (b.job serial).bind (·.sectorRec k), b.ts.freePoolSlot with
  | some r, some slot =>
    if r.caps.length < 8 then
      ((b.usePool slot).modJob serial fun j =>
          j.modSector k fun r => { r with caps := r.caps ++ [Capture.pendingAt slot] },
        some slot)
    else (b, none)
  | _, _ => (b, none)

/-- A slot set aside that gave no capture: the pending entry leaves its set, or the RELAY sector its
slot aside, and the slot is FREE (R62, R64, R98). -/
def Board.dropAside (b : Board) (c : CaptureFor) : Board :=
  match c.slot, b.job c.job with
  | some slot, some j =>
    match j.kind with
    | .relay =>
      if (j.relayRec c.sector).any (·.aside = some slot) then
        (b.modJob c.job fun j => j.modRelay c.sector fun r => { r with aside := none }).freePool slot
      else b
    | _ =>
      if (j.sectorRec c.sector).any (·.caps.any fun x => x.slot = slot && !x.held) then
        (b.modJob c.job fun j => j.modSector c.sector fun r =>
          { r with caps := r.caps.filter fun x => !(x.slot = slot && !x.held) }).freePool slot
      else b
  | _, _ => b

/-- The job for which a relayed read of an address is captured (R100). -/
def Board.captureJob (b : Board) (a : Addr) : Option Job :=
  b.re.jobs.find? fun j =>
    j.kind = .salvage && j.track = a.track && j.state ≠ .settling &&
      (j.sectorRec a.sector.val).any (·.status.unresolved)

/-- The READ of drive d is relayed and checked: the channel gets its LIVE set-up, with a capture where the
engine names a job (R29, R61, R100). -/
def Board.makeRelay (b : Board) (d : DriveNo) : Board :=
  let a := (b.drv d).lp.cmd.target
  let (b', cap) : Board × Option CaptureFor :=
    match b.captureJob a with
    | none => (b, none)
    | some j =>
      let (b', slot) := b.setAside j.serial a.sector.val
      (b', some { job := j.serial, sector := a.sector.val, slot := slot })
  (b'.modLp d fun lp => { lp with cmd := { lp.cmd with course := .relay } }).modRc d fun rc =>
    { rc with shift := 0,
              setup := .live { cyl := a.cyl.val, head := a.head.val, sector := a.sector.val,
                               capture := cap } }

/-- Whether a READ of drive d waits for its slot and depends on the buffer (R25). -/
def LivePath.waitsOnBuffer (lp : LivePath) : Bool :=
  lp.cmd.phase = .awaitingSlot && lp.cmd.course = .emit && lp.buf.addr = lp.cmd.target

/-- A READ that waits on the buffer asks the directory again: the fill starts anew from the entry's slot as
it stands, or the read is relayed (R25). -/
def Board.askAgain (b : Board) (d : DriveNo) : Board :=
  let cmd := (b.drv d).lp.cmd
  match b.ts.entry cmd.target with
  | some e =>
    if e.serves cmd.sub cmd.grade then b.startFill d cmd.target e.slot
    else (b.voidBuffer d).makeRelay d
  | none => (b.voidBuffer d).makeRelay d

/-- LP's action on a change of the entry at an address (R25, R28, R37). -/
def Board.entryChanged (b : Board) (a : Addr) : Board :=
  let lp := (b.drv a.drive).lp
  if lp.buf.addr ≠ a ∨ lp.buf.state = .absorbing ∨ lp.buf.state = .invalid then b
  else if lp.emission.isSome then b.modLp a.drive fun lp => { lp with bufChanged := true }
  else if lp.waitsOnBuffer then b.askAgain a.drive
  else b.voidBuffer a.drive

/-- A new entry in a slot, replacing one at its address, whose own slot is let go (R134). -/
def Board.createEntry (b : Board) (a : Addr) (slot : Nat) (kind : KeepKind) : Board :=
  let old := b.ts.entry a
  let e : KeepEntry := { addr := a, slot := slot, kind := kind, damaged := false, time := b.now,
                         epoch := b.ts.epoch, exported := false }
  let b1 : Board := ({ b with ts := { b.ts with dir := dirInsert e b.ts.dir } } : Board).setKeep slot .entry
  let b2 := match old with
    | some o => if o.slot = slot then b1 else b1.letGo o.slot
    | none => b1
  b2.entryChanged a

/-- The directory with the entry at an address changed in place. -/
def Board.modEntry (b : Board) (a : Addr) (f : KeepEntry → KeepEntry) : Board :=
  { b with ts := { b.ts with dir := b.ts.dir.map fun e => if e.addr = a then f e else e } }

/-- The entry at an address marked DAMAGED; one already DAMAGED stays as it is (R134). -/
def Board.damageEntry (b : Board) (a : Addr) : Board :=
  match b.ts.entry a with
  | some e =>
    if e.damaged then b
    else (b.modEntry a fun e => { e with damaged := true, exported := false }).entryChanged a
  | none => b

/-- The entry at an address made PLACED in its slot by RETAIN: its creation time is kept (R134). -/
def Board.placeEntry (b : Board) (a : Addr) : Board :=
  (b.modEntry a fun e => { e with kind := .placed, exported := false }).entryChanged a

/-- The entry at an address released (R134); an examination follows (R103). -/
def Board.releaseEntry (b : Board) (a : Addr) : Board :=
  match b.ts.entry a with
  | some e =>
    let b1 : Board := { b with ts := { b.ts with dir := b.ts.dir.filter (·.addr ≠ a) }, exam := true }
    (b1.letGo e.slot).entryChanged a
  | none => b

end Sys2Proof.Machine
end

