-- ==== Sys2Proof/Machine/Flags.lean ====
section
/-! DEFINITION. Tests and marks computed from the state: the speed band and watchdog, the guard test, what the
controller sees, whether a job needs a pass and is eligible. -/

namespace Sys2Proof.Machine

/-- Whether a time in µs lies within the speed band of a profile (R9). -/
def Profile.inSpeedBand (p : Profile) (t : Nat) : Bool := 97 * p.period ≤ 100 * t && 100 * t ≤ 103 * p.period

/-- The speed average, once the history holds 8 periods (section 3.1). -/
def Tracker.average (rt : Tracker) : Option Nat :=
  if rt.history.length = 8 then some (rt.history.sum / 8) else none

/-- Whether the index watchdog has expired after a time since the last index (R47). -/
def Tracker.watchdogDue (rt : Tracker) (p : Profile) (t : Nat) : Bool :=
  rt.state = .locked && 3 * (rt.average.getD p.period) < 2 * t

/-- Whether a sector address is guarded (R33). -/
def Board.guarded (b : Board) (a : Addr) : Bool :=
  (b.trackJob a.track).isSome || b.re.suspects.any (·.track = a.track) || (b.ts.entry a).isSome

/-- Whether the engine owns the drive (R16). -/
def Owner.engine : Owner → Bool
  | .enginePosition | .enginePass | .engineRestore => true
  | _ => false

/-- The status lines and pulse gate LP presents to the controller (R16). -/
structure CtrlView where
  ready : Bool
  onCylinder : Bool
  seekError : Bool
  writeProtect : Bool
  pulses : Bool
  deriving DecidableEq, Repr

/-- What the controller sees of a drive (R16). WRITE_PROTECT shows the drive's line or the override in every state,
with the engine at the drive too (log entry 37). -/
def Drive.view (x : Drive) : CtrlView :=
  let low := x.da.share.mode = .salvageOnly
  if x.da.owner.engine then
    { ready := !low, onCylinder := false, seekError := false,
      writeProtect := x.pins.writeProtect || x.lp.wpOver, pulses := false }
  else
    { ready := x.pins.ready && !low && x.da.owner ≠ .offline, onCylinder := x.pins.onCylinder,
      seekError := x.pins.seekError || x.lp.seOver,
      writeProtect := x.pins.writeProtect || x.lp.wpOver, pulses := true }

/-- The cells LP itself sends on the controller's read-data line in the open slot: a stored image (R28), or the
header in a diverted write's slot (R38 step 1); none where the drive's own cells pass. -/
def LivePath.emits (lp : LivePath) : List Bool :=
  match lp.emission, lp.diversion with
  | some img, _ => sectorCells img
  | none, some dv =>
    if lp.cmd.phase = .transfer ∧ lp.cmd.course = .divert then sectorCells dv.header else []
  | none, none => []

/-- Whether the drive's write gate is raised, by a passed live write or by a RELAY write (R4, R35). -/
def Drive.writeGate (x : Drive) : Bool := x.lp.gate || x.da.writing.isSome

/-- The cells the part itself writes in the open slot of a RELAY WRITE pass: preamble, sync cell and image; none
while the drive's gate is down for it (R4). -/
def Drive.writes (x : Drive) : List Bool :=
  if x.da.writing.isSome then sectorCells x.da.writeImage else []

/-- Whether a job needs a pass (R93). -/
def Job.needsPass (j : Job) : Bool :=
  match j.kind with
  | .salvage => !j.exhausted && j.hasUnresolved
  | .survey => j.curCyl ≤ j.endCyl.val
  | .relay => true

/-- Whether a job is eligible on drive d (R75). -/
def Board.eligible (b : Board) (d : DriveNo) (j : Job) : Bool :=
  j.drive = d && j.state = .waiting && j.needsPass && !(b.drv d).rt.doubt &&
    (b.drv d).da.share.mode ≠ .liveOnly

/-- The cylinder of a job's track for the choice of R75. -/
def Job.cylinderNow (j : Job) : Nat :=
  match j.kind with
  | .survey => j.curCyl
  | _ => j.cyl.val

/-- The keys of the choice of R75: take level, then distance. -/
def Board.choiceKey (b : Board) (d : DriveNo) (j : Job) : Nat × Nat :=
  let hc := ((b.drv d).da.headCyl.map (·.val)).getD 0
  (if j.level = .pressing then 0 else 1, (max j.cylinderNow hc) - (min j.cylinderNow hc))

/-- The eligible job of the least keys, the earlier filed among equals (R75). -/
def Board.bestJob (b : Board) (d : DriveNo) : List Job → Option Job
  | [] => none
  | j :: js =>
    match b.bestJob d js with
    | none => if b.eligible d j then some j else none
    | some x =>
      let (l, n) := b.choiceKey d j
      let (l', n') := b.choiceKey d x
      if b.eligible d j && (l < l' || (l = l' && n ≤ n')) then some j else some x

/-- The job the arbiter of drive d hands the drive to (R75). -/
def Board.choose (b : Board) (d : DriveNo) : Option Job := b.bestJob d b.re.jobs

/-- Whether a PRESSING eligible job exists on drive d (R76). -/
def Board.pressing (b : Board) (d : DriveNo) : Bool :=
  b.re.jobs.any fun j => b.eligible d j && j.level = .pressing

/-- Whether solves or capture writes of a job are outstanding (R93). -/
def Board.outstanding (b : Board) (serial : Nat) : Bool :=
  b.su.queue.any (·.1 = serial) || b.su.flight.any (·.job = serial) ||
    let writing (d : Drive) : Bool :=
      (d.rc.buf0.state = .writing && d.rc.buf0.who.job = serial) ||
        (d.rc.buf1.state = .writing && d.rc.buf1.who.job = serial)
    writing b.drives.d0 || writing b.drives.d1 || writing b.drives.d2 || writing b.drives.d3

/-- Whether a pass-through write has the drive's gate raised on a track (R35). -/
def Board.gateOnTrack (b : Board) (t : Track) : Bool :=
  (b.drv t.drive).lp.gate && (b.drv t.drive).lp.cmd.target.track = t

end Sys2Proof.Machine
end

