-- ==== Sys2Proof/Machine/Engine.lean ====
section
/-! DEFINITION. The recovery engine: suspect reports, filing, finishing, the examination of the suspect list,
and the marks a finish or a superseded sector sets in the solve unit (chapters 6 and 7). -/

namespace Sys2Proof.Machine

/-! ### Suspect reports (R102) -/

/-- Whether a DIVERTED or PLACED entry stands at an address (R92, R102). -/
def Board.heldByHost (b : Board) (a : Addr) : Bool :=
  (b.ts.entry a).any fun e => !e.damaged && (e.kind = .diverted || e.kind = .placed)

/-- A SALVAGE sector record just made (R92). -/
def SalvageSector.fresh (k : Nat) (status : SectorStatus) (slot : Option Nat) : SalvageSector :=
  { sector := k, status := status, caps := [], best := none, slot := slot }

/-- One sector of a folded report, added to the job as PENDING when a slot can be set aside (R102). -/
def Board.foldSector (b : Board) (serial : Nat) (t : Track) (k : Nat) : Board :=
  match b.job serial, b.ts.freeKeepSlot with
  | some j, some slot =>
    if (j.sectorRec k).isSome || b.heldByHost (t.addr k) then b
    else (b.setKeep slot .reserved).modJob serial fun j =>
      { j with sectors := j.sectors ++ [SalvageSector.fresh k .pending (some slot)] }
  | _, _ => b

/-- The sectors of a mask below n, in ascending order. -/
def maskSectors (m : SectorSet) (n : Nat) : List Nat := (List.range 16).filter fun k => k < n && m.getLsbD k

/-- What a report of failed sectors of a track leaves of the suspect list and of the track's job (R102); a report
that adds an entry asks for the examination of R103. -/
def Board.addReport (b : Board) (t : Track) (mask : SectorSet) (src : Source) : Board :=
  match b.trackJob t with
  | some j =>
    if j.kind = .salvage && j.state ≠ .settling then
      (maskSectors mask (b.drv t.drive).profile.sectors).foldl (fun b k => b.foldSector j.serial t k) b
    else b
  | none =>
    if b.re.suspects.any (·.track = t) then
      { b with re := { b.re with suspects := b.re.suspects.map fun x =>
          if x.track = t then
            { x with mask := x.mask ||| mask, count := min 255 (x.count + 1), last := b.now }
          else x } }
    else if b.re.suspects.length < 64 then
      let x : Suspect := { track := t, mask := mask, count := 1, first := b.now, last := b.now,
                           source := src }
      ({ b with re := { b.re with suspects := b.re.suspects ++ [x] }, exam := true } : Board).note
        (some t.drive) (.suspectAdded x)
    else b.note (some t.drive) (.suspectDropped t mask src)

/-! ### Marks in the solve unit (R114, R123, R124) -/

/-- A solve that goes no further: its reads are withdrawn, the locks of its captures are cleared and
nothing is in flight; the next solve starts at the end of the step (R123, R124). The store access in progress that a
solve thrown away still completes is one cell access, so a snapshot read half made is withdrawn with it (log entry
73). -/
def Board.endSolve (b : Board) : Board :=
  match b.su.flight with
  | none => b
  | some f =>
    let b1 := (b.dropOps fun op => op.kind = .solveRead).modJob f.job fun j =>
      j.modSector f.sector fun r => { r with caps := r.caps.map fun c => { c with lock := false } }
    { b1 with su := { b1.su with flight := none }, solveOver := true }

/-- The discard mark of a finishing job's solve: reads end at once, a delivery write completes first
(R123). -/
def Board.discardSolve (b : Board) (serial : Nat) : Board :=
  match b.su.flight with
  | some f =>
    if f.job = serial then
      match f.phase with
      | .reading => b.endSolve
      | .delivering _ => { b with su := { b.su with flight := some { f with discard := true } } }
    else b
  | none => b

/-- The superseded mark of a sector's solve, and its queued pair removed (R114, R123). -/
def Board.supersedeSolve (b : Board) (serial k : Nat) : Board :=
  let b := { b with su := { b.su with queue := b.su.queue.filter (· ≠ (serial, k)) } }
  match b.su.flight with
  | some f =>
    if f.job = serial ∧ f.sector = k then
      match f.phase with
      | .reading => b.endSolve
      | .delivering _ => { b with su := { b.su with flight := some { f with superseded := true } } }
    else b
  | none => b

/-- The pairs of a job removed from the solve queue (R112, R114). -/
def Board.unqueueJob (b : Board) (serial : Nat) : Board :=
  { b with su := { b.su with queue := b.su.queue.filter (·.1 ≠ serial) } }

/-- A pair asked to be queued: the requeue mark of its solve in flight, or its place kept, or the end of
the queue (R114). -/
def Board.joinQueue (b : Board) (serial k : Nat) : Board :=
  match b.su.flight with
  | some f =>
    if f.job = serial ∧ f.sector = k then
      { b with su := { b.su with flight := some { f with requeue := true } } }
    else if b.su.queue.contains (serial, k) then b
    else { b with su := { b.su with queue := b.su.queue ++ [(serial, k)] } }
  | none =>
    if b.su.queue.contains (serial, k) then b
    else { b with su := { b.su with queue := b.su.queue ++ [(serial, k)] } }

/-! ### Results and the keep directory (R111, R122, R126) -/

/-- Whether a result of a time ranks above an entry (R122); newly says that the result is delivered now
and so is later than every entry. -/
def Board.ranksAbove (b : Board) (r : Rating) (time : Time) (newly : Bool) (e : KeepEntry) : Bool :=
  match e.kind with
  | .recovered x =>
    match r.cmp x with
    | .gt => true
    | .lt => false
    | .eq => newly || e.epoch ≠ b.ts.epoch || b.since time < b.since e.time
  | _ => false

/-- A result in its reserved slot handed to the directory by rank (R126): the directory after it and the
keep action. -/
def Board.enterResult (b : Board) (a : Addr) (slot : Nat) (r : Rating) (time : Time) (newly : Bool) :
    Board × KeepAction :=
  match b.ts.entry a with
  | none => (b.createEntry a slot (.recovered r), .created)
  | some e =>
    if e.damaged || b.ranksAbove r time newly e then (b.createEntry a slot (.recovered r), .replaced)
    else (b.letGo slot, .keptExisting)

/-! ### Finishing (R108, R112) -/

/-- The best results of a SALVAGE entered at its finish (R111). -/
def Board.enterBests (b : Board) (j : Job) : Board :=
  j.sectors.foldl (fun b r =>
    match r.best, r.slot with
    | some x, some slot =>
      if r.status = .resolved then b
      else
        ((b.enterResult (j.track.addr r.sector) slot x.rating x.time false).1).modJob j.serial fun j =>
          j.modSector r.sector fun r => { r with slot := none }
    | _, _ => b) b

/-- The directory copy of a PREPARE image into a new PLACED entry, when a keep slot is free (R141). -/
def Board.startCopy (b : Board) (j : Job) (r : RelaySector) (c : Capture) : Board :=
  let a := j.track.addr r.sector
  match b.ts.freeKeepSlot with
  | none => b
  | some slot =>
    ((b.setKeep slot .entry).createEntry a slot .placed).request (.copy a c.slot) slot
      (slotReads c.slot Config.imageCells)

/-- The entry changes of a RELAY that finishes COMPLETE (R108). A sector whose PREPARE image a double error has
discarded since it was written gets no entry (log entry 61). -/
def Board.relayEntries (b : Board) (j : Job) : Board :=
  let own := b.ts.dir.filter fun e => e.addr.track = j.track && !e.damaged
  let b1 :=
    if j.retain then
      let b1 := (own.filter (·.kind = .diverted)).foldl (fun b e => b.placeEntry e.addr) b
      j.relay.foldl (fun b r =>
        match r.image with
        | some c =>
          if r.written && !(b.ts.entry (j.track.addr r.sector)).any (·.usable) then b.startCopy j r c
          else b
        | none => b) b1
    else own.foldl (fun b e => b.releaseEntry e.addr) b
  { b1 with re := { b1.re with suspects := b1.re.suspects.filter (·.track ≠ j.track) } }

/-- Whether a directory copy reads a capture slot (R98, R141). -/
def Store.copies (ts : Store) (slot : Nat) : Bool :=
  ts.ops.any fun op => match op.kind with
    | .copy _ source => source = slot
    | _ => false

/-- Whether a capture write of a job into its slot is in progress (R65). -/
def Board.capturing (b : Board) (serial slot : Nat) : Bool :=
  ([0, 1, 2, 3] : List DriveNo).any fun d =>
    (b.drv d).rc.buf0.writesFor serial slot || (b.drv d).rc.buf1.writesFor serial slot

/-- The capture and image slots of a job freed, but for an image that a directory copy reads and a slot being
written, which its write's end frees (R65, R110, R112; log entry 12). -/
def Board.freeCaptures (b : Board) (j : Job) : Board :=
  let own := (j.sectors.flatMap fun r => r.caps.map (·.slot)) ++
    j.relay.flatMap fun r => r.aside.toList ++ (r.image.map (·.slot)).toList
  let stays (s : Nat) : Bool := !own.contains s || b.ts.copies s || b.capturing j.serial s
  { b with ts := { b.ts with pool := b.ts.pool.filter stays } }

/-- The reservations a job still holds, let go (R97, R112). -/
def Board.freeReservations (b : Board) (j : Job) : Board :=
  j.sectors.foldl (fun b r => match r.slot with
    | some slot => b.letGo slot
    | none => b) b

/-- The arbiter serving an ACTIVE job asked to end its pass at the boundary or to abandon its
positioning (R82). -/
def Board.askEnd (b : Board) (d : DriveNo) (serial : Nat) : Board :=
  let da := (b.drv d).da
  if da.served.any (·.serial = serial) then
    match da.owner with
    | .enginePass => b.modDa d fun da => { da with atBoundary := true }
    | .enginePosition => b.modDa d fun da => { da with abandon := true }
    | _ => b
  else b

/-- The mask a RELAY's failure reports to the suspect list (R108). -/
def Outcome.relayMask (o : Outcome) (sectors : Nat) : SectorSet :=
  match o with
  | .failedVerify m => m
  | _ => sectorSet (List.range (min sectors 16))

/-- A job's finish, but for the examination that follows it (R112 steps 1 to 6). -/
def Board.finishCore (b : Board) (serial : Nat) (o : Outcome) : Board :=
  match b.job serial with
  | none => b
  | some j =>
    let b1 := match j.kind, o with
      | .salvage, .partialDone => b.enterBests j
      | .salvage, .driveLost => b.enterBests j
      | .salvage, .seekFailed => b.enterBests j
      | .relay, .complete => b.relayEntries j
      | _, _ => b
    let b2 := (b1.note (some j.drive) (.jobDone j o)).askEnd j.drive serial
    let b3 := (b2.unqueueJob serial).discardSolve serial
    let j' := (b3.job serial).getD j
    let b4 := (b3.freeCaptures j').freeReservations j'
    let b5 := { b4 with re := { b4.re with jobs := b4.re.jobs.filter (·.serial ≠ serial) }, exam := true }
    if j.kind = .relay ∧ o ≠ .complete ∧ j.written then
      b5.addReport j.track (o.relayMask (b5.drv j.drive).profile.sectors) .relay
    else b5

/-! ### Filing (R91, R92) -/

/-- The fields of a filing that pass their codings (R165, R169). -/
structure FileReq where
  kind : JobKind
  drive : DriveNo
  cyl : Fin 512
  head : Fin 4
  endCyl : Fin 512
  target : SectorSet
  accept : Grade
  repeats : Nat
  retain : Bool
  deriving DecidableEq, Repr

/-- The track of a filing. -/
def FileReq.track (r : FileReq) : Track := { drive := r.drive, cyl := r.cyl, head := r.head }

/-- The target sectors of a SALVAGE filing that need a reservation (R92). -/
def Board.toReserve (b : Board) (r : FileReq) : List Nat :=
  (maskSectors r.target 16).filter fun k => !b.heldByHost (r.track.addr k)

/-- The first check of a filing that fails (R91). -/
def Board.fileCheck (b : Board) (r : FileReq) : Option Status :=
  let p := (b.drv r.drive).profile
  match r.kind with
  | .survey =>
    if ¬ (r.cyl.val < p.cylinders ∧ r.endCyl.val < p.cylinders ∧ r.cyl ≤ r.endCyl) then some .range
    else if b.re.jobs.any fun j => j.kind = .survey && j.drive = r.drive then some .conflict
    else if 8 ≤ b.re.jobs.length then some .noRoom
    else none
  | .relay =>
    if b.ts.init.isSome then some .notReady
    else if ¬ trackWithin p r.cyl.val r.head.val then some .range
    else if (b.trackJob r.track).isSome then some .conflict
    else if 8 ≤ b.re.jobs.length then some .noRoom
    else none
  | .salvage =>
    if b.ts.init.isSome then some .notReady
    else if ¬ trackWithin p r.cyl.val r.head.val ∨ r.target = 0 ∨
        (maskSectors r.target 16).any (p.sectors ≤ ·) then some .range
    else if (b.trackJob r.track).isSome then some .conflict
    else if 8 ≤ b.re.jobs.length ∨ b.ts.freeCount < (b.toReserve r).length then some .noRoom
    else none

/-- The next job id after one, passing over live ids, wrapping from 255 to 1 (R90). -/
def nextJobId (live : List Nat) : Nat → Nat → Nat
  | 0, n => n
  | fuel + 1, n =>
    let m := if 255 ≤ n then 1 else n + 1
    if live.contains m then nextJobId live fuel m else m

/-- The keep slot and record of each target sector of a SALVAGE, in ascending order (R92). -/
def Board.reserveSectors (b : Board) (t : Track) : List Nat → Board × List SalvageSector
  | [] => (b, [])
  | k :: ks =>
    if b.heldByHost (t.addr k) then
      let (b', rs) := b.reserveSectors t ks
      (b', SalvageSector.fresh k .superseded none :: rs)
    else
      match b.ts.freeKeepSlot with
      | some slot =>
        let (b', rs) := (b.setKeep slot .reserved).reserveSectors t ks
        (b', SalvageSector.fresh k .pending (some slot) :: rs)
      | none =>
        let (b', rs) := b.reserveSectors t ks
        (b', SalvageSector.fresh k .pending none :: rs)

/-- The source of a RELAY sector as it stands (R105). -/
def Board.sourceOf (b : Board) (t : Track) (r : RelaySector) : ImageSource :=
  if (b.ts.entry (t.addr r.sector)).any (·.usable) then .keep
  else if r.image.isSome then .prepare
  else .none

/-- A RELAY in PREPARE with no source missing enters WRITE (R105). -/
def Board.prepareCheck (b : Board) (j : Job) : Job :=
  if j.kind = .relay ∧ j.relayStep = .prepare then
    if j.relay.all fun r => b.sourceOf j.track r ≠ .none then { j with relayStep := .write, stepPass := 0 }
    else j
  else j

/-- A job placed in the table (R92), and its track's suspect entry removed. -/
def Board.placeJob (b : Board) (r : FileReq) : Board × Job :=
  let id := nextJobId (b.re.jobs.map (·.id)) 255 b.re.lastId
  let (b1, secs) :=
    match r.kind with
    | .salvage => b.reserveSectors r.track (maskSectors r.target 16)
    | _ => (b, [])
  let rel : List RelaySector :=
    match r.kind with
    | .relay => (List.range (b.drv r.drive).profile.sectors).map fun k =>
        { sector := k, aside := none, image := none, written := false, verified := false }
    | _ => []
  let j : Job :=
    { serial := b.re.nextSerial, id := id, kind := r.kind, drive := r.drive, cyl := r.cyl,
      head := if r.kind = .survey then 0 else r.head, endCyl := r.endCyl, curCyl := r.cyl.val,
      curHead := 0, tracksFound := 0, accept := r.accept, repeats := r.repeats, retain := r.retain,
      step := 0, passes := 0, rep := 1, exhausted := false, recal := false, tally := none, total := 0,
      abandoned := 0, seekFails := 0, level := .patient, since := b.now, filed := b.now,
      state := .waiting, sectors := secs, relay := rel, relayStep := .prepare, stepPass := 0,
      stale := false, written := false, fatal := false }
  let j := b1.prepareCheck j
  let suspects :=
    if r.kind = .survey then b1.re.suspects else b1.re.suspects.filter (·.track ≠ r.track)
  ({ b1 with re := { b1.re with jobs := b1.re.jobs ++ [j], lastId := id,
                                nextSerial := b.re.nextSerial + 1, suspects := suspects } }, j)

/-- The filings that finish at once (R92). A SALVAGE with every target SUPERSEDED on a lost drive finishes COMPLETE
(log entry 42). -/
def Board.finishAtOnce (b : Board) (j : Job) : Board :=
  if j.kind = .salvage ∧ !j.hasUnresolved then b.finishCore j.serial .complete
  else if (b.drv j.drive).da.lost then b.finishCore j.serial .driveLost
  else b

/-! ### The examination of the suspect list (R103) -/

/-- One entry tried under auto-salvage (R103); a filing on a track whose write gate is up waits for the
gate to drop (R35, R91). -/
def Board.tryEntry (b : Board) (x : Suspect) : Board :=
  let p := (b.drv x.track.drive).profile
  let r : FileReq :=
    { kind := .salvage, drive := x.track.drive, cyl := x.track.cyl, head := x.track.head, endCyl := 0,
      target := sectorSet (maskSectors x.mask p.sectors), accept := .b, repeats := 1, retain := false }
  if b.fileCheck r ≠ none then b
  else if b.gateOnTrack x.track then b.modLp x.track.drive fun lp => { lp with autoWait := true }
  else
    let (b1, j) := b.placeJob r
    (b1.note (some j.drive) (.suspectFiled x j.id)).finishAtOnce j

/-- The walk over the drives 0..3, each drive's entries oldest first (R103). -/
def Board.walkSuspects (b : Board) : Board :=
  ([0, 1, 2, 3] : List DriveNo).foldl (fun b d =>
    if b.re.auto.get d && !(b.drv d).da.lost then
      (b.re.suspects.filter (·.track.drive = d)).foldl Board.tryEntry b
    else b) b

/-- Examinations until none is asked for (R103): one asked for during an examination is made once, after it. -/
def Board.examineFor (b : Board) : Nat → Board
  | 0 => { b with exam := false }
  | fuel + 1 =>
    if b.exam then Board.examineFor (Board.walkSuspects { b with exam := false }) fuel else b

/-- The examination that is asked for, if any (R103), made where the step that asked for it has come to the end of the
change that did (log entry 21). Each filing takes an entry off the list, so the count of entries bounds the
examinations. -/
def Board.examine (b : Board) : Board := b.examineFor (b.re.suspects.length + 2)

/-- A report taken, with the examination that an added entry starts (R102, R103). -/
def Board.report (b : Board) (t : Track) (mask : SectorSet) (src : Source) : Board :=
  (b.addReport t mask src).examine

/-- A job's finish with the examination that ends it (R112). -/
def Board.finish (b : Board) (serial : Nat) (o : Outcome) : Board := (b.finishCore serial o).examine

/-- A job that needs no pass and has nothing outstanding finishes; one that has settles (R93). -/
def Board.restOrFinish (b : Board) (serial : Nat) : Board :=
  if b.outstanding serial then b.modJob serial fun j => { j with state := .settling }
  else b.finish serial .partialDone

/-- A SETTLING job with nothing outstanding finishes PARTIAL (R93). -/
def Board.settleCheck (b : Board) (serial : Nat) : Board :=
  match b.job serial with
  | some j => if j.state = .settling ∧ !b.outstanding serial then b.finish serial .partialDone else b
  | none => b

/-- A SALVAGE whose last unresolved sector has been resolved or superseded finishes COMPLETE (R93). -/
def Board.completeCheck (b : Board) (serial : Nat) : Board :=
  match b.job serial with
  | some j => if j.kind = .salvage ∧ !j.hasUnresolved then b.finish serial .complete else b
  | none => b

/-! ### Superseded sectors and stale RELAYs (R40, R109, R134) -/

/-- A RELAY's stale mark acted on by the job's step (R109). In PREPARE and WRITE the new entry is the sector's
source without more, since a source is read as the directory stands. -/
def Job.actStale (j : Job) : Job :=
  if !j.stale then j
  else
    match j.relayStep with
    | .prepare => { j with stale := false }
    | .write => { j with stale := false }
    | .verify =>
      { j with stale := false, relayStep := .write, stepPass := 0,
               relay := j.relay.map fun r => { r with verified := false } }

/-- The RELAY of a track marked stale, acted on at once while WAITING (R109). -/
def Board.markStale (b : Board) (t : Track) : Board :=
  match b.trackJob t with
  | some j =>
    if j.kind = .relay then
      b.modJob j.serial fun j =>
        let j := { j with stale := true }
        if j.state = .waiting then j.actStale else j
    else b
  | none => b

/-- An unresolved SALVAGE target at an address becomes SUPERSEDED and its reservation is freed (R40,
R134). The record of its best result stays (log entry 80). -/
def Board.supersede (b : Board) (a : Addr) : Board :=
  match b.trackJob a.track with
  | some j =>
    if j.kind = .salvage ∧ (j.sectorRec a.sector.val).any (·.status.unresolved) then
      let slot := (j.sectorRec a.sector.val).bind (·.slot)
      let b1 := b.modJob j.serial fun j => j.modSector a.sector.val fun r =>
        { r with status := .superseded, slot := none }
      let b2 := match slot with
        | some s => b1.letGo s
        | none => b1
      (((b2.supersedeSolve j.serial a.sector.val).examine).completeCheck j.serial).settleCheck j.serial
    else b
  | none => b

/-- A DIVERTED or PLACED entry made at an address from outside a RELAY, handed on (R134). -/
def Board.handOn (b : Board) (a : Addr) : Board := (b.supersede a).markStale a.track

end Sys2Proof.Machine
end

