-- ==== Sys2Proof/Machine/Arbiter.lean ====
section
/-! DEFINITION. The drive arbiter: starting live commands, takes, positioning, passes, decisions, restores and
the hand-back (chapters 2 and 5), and what the engine makes of the end of a pass (chapter 6). -/

namespace Sys2Proof.Machine

/-! ### Live commands (R15, R17..R20, R23) -/

/-- A seek or recalibrate sent to the drive: its lines ON_CYLINDER and SEEK_ERROR go low until it reports
the end (log entry 20). -/
def Board.sendMove (b : Board) (d : DriveNo) : Board :=
  b.modPins d fun p => { p with onCylinder := false, seekError := false }

/-- The pending share mode, if any, put in force (R72). -/
def Board.applyPending (b : Board) (d : DriveNo) : Board :=
  b.modDa d fun da =>
    match da.share.pending with
    | some m => { da with share := { da.share with mode := m, pending := none } }
    | none => da

/-- A PRESSING eligible job during LIVE_BUSY moves the arbiter to TAKING (R76). -/
def Board.enterTaking (b : Board) (d : DriveNo) : Board :=
  let da := (b.drv d).da
  if da.owner = .liveBusy ∧ (da.share.mode = .liveFirst ∨ da.share.mode = .salvageFirst) ∧ b.pressing d
  then b.modDa d fun da => { da with owner := .taking }
  else b

/-- The arbiter LIVE_BUSY (R71). -/
def Board.goBusy (b : Board) (d : DriveNo) : Board := b.modDa d fun da => { da with owner := .liveBusy }

/-- The record of a READ or WRITE that starts (R19, R22). -/
def Board.startRecord (b : Board) (d : DriveNo) (c : CtrlCmd) (k : Fin 16) : CmdRec :=
  let x := b.drv d
  let a : Addr := { drive := d, cyl := x.lp.pos.cyl, head := x.lp.pos.head, sector := k }
  let beyond := !(withinProfile x.profile a.cyl.val a.head.val k.val && x.lp.pos.established)
  { phase := .awaitingSlot, cmd := some c, target := a, beyond := beyond, started := b.now,
    limit := 2 * x.profile.period, sub := x.lp.sub, grade := x.lp.grade,
    course := if beyond then .plain else .undecided }

/-- The course of a READ at its start: emitted, or relayed and checked (R23, R29). A buffer that absorbs a
commit cannot be filled: the read is relayed (log entry 15). -/
def Board.courseRead (b : Board) (d : DriveNo) : Board :=
  let lp := (b.drv d).lp
  if lp.cmd.beyond then b
  else
    match b.ts.entry lp.cmd.target with
    | some e =>
      if e.serves lp.cmd.sub lp.cmd.grade && lp.buf.state ≠ .absorbing then
        let b1 := b.modLp d fun lp => { lp with cmd := { lp.cmd with course := .emit } }
        if lp.buf.state = .valid ∧ lp.buf.addr = lp.cmd.target then b1
        else b1.startFill d lp.cmd.target e.slot
      else b.makeRelay d
    | none => b.makeRelay d

/-- A command LP starts on a LIVE_IDLE drive (R17, R18, R19). -/
def Board.startCommand (b : Board) (d : DriveNo) (c : CtrlCmd) : Board :=
  match c with
  | .seek n =>
    (((b.sendMove d).modLp d fun lp =>
      { lp with pos := { lp.pos with cyl := n }, seeking := true,
                cmd := { CmdRec.idle with phase := .seeking, cmd := some c } }).goBusy d).enterTaking d
  | .recalibrate =>
    (((b.sendMove d).modLp d fun lp =>
      { lp with pos := { lp.pos with cyl := 0 }, seeking := true,
                cmd := { CmdRec.idle with phase := .seeking, cmd := some c } }).goBusy d).enterTaking d
  | .headSelect h =>
    ((b.modPins d fun p => { p with head := h }).modLp d fun lp =>
      { lp with pos := { lp.pos with head := h }, cmd := .idle }).modDa d fun da =>
        { da with idleStart := some b.now }
  | .read k =>
    (((b.modLp d fun lp => { lp with cmd := b.startRecord d c k }).courseRead d).goBusy d).enterTaking d
  | .write k =>
    ((b.modLp d fun lp => { lp with cmd := b.startRecord d c k }).goBusy d).enterTaking d

/-- The held-command flag and hold start cleared (R81), and with them the stop they asked of a positioning: the
pass in flight runs as it would without a held command (R88; log entry 13). A hold-limit stop of a WRITE pass that
waits for its sector's end stands (log entry 60). -/
def Board.clearHold (b : Board) (d : DriveNo) : Board :=
  b.modDa d fun da => { da with held := false, holdStart := none, limitHit := false, preempted := false }

/-- The held command started at LIVE_IDLE, as if it had just arrived (R20); under SALVAGE_ONLY it ends at
once (R15, R73). -/
def Board.startHeld (b : Board) (d : DriveNo) : Board :=
  let x := b.drv d
  match x.lp.cmd.phase, x.lp.cmd.cmd with
  | .held, some c =>
    let b1 := (b.modLp d fun lp => { lp with cmd := .idle }).clearHold d
    if x.da.share.mode = .salvageOnly then b1 else b1.startCommand d c
  | _, _ => b

/-- The arbiter LIVE_IDLE with the idle start now, and any held command started (R71, R20). -/
def Board.goIdle (b : Board) (d : DriveNo) : Board :=
  (b.modDa d fun da => { da with owner := .liveIdle, idleStart := some b.now }).startHeld d

/-! ### Restore and hand-back (R84, R85) -/

/-- The hand-back that completes a restore (R84). -/
def Board.handBack (b : Board) (d : DriveNo) : Board :=
  (b.modDa d fun da => { da with enginePos := none, served := none, work := .idle }).goIdle d

/-- Step 3 of a restore: the live head, then the hand-back (R84). -/
def Board.restoreHead (b : Board) (d : DriveNo) : Board :=
  (b.modPins d fun p => { p with head := (b.drv d).lp.pos.head }).handBack d

/-- A SEEK to the live cylinder during the restore (R84). -/
def Board.sendRestoreSeek (b : Board) (d : DriveNo) : Board :=
  (b.sendMove d).modDa d fun da => { da with work := .restoreSeek, workAt := b.now }

/-- Step 2 of a restore: the seek to the live cylinder, unless the heads are there (R84). -/
def Board.restoreSeek (b : Board) (d : DriveNo) : Board :=
  let x := b.drv d
  if x.da.headCyl = some x.lp.pos.cyl then b.restoreHead d else b.sendRestoreSeek d

/-- A new offset request, with its lines driven and the phase SETTLING; one equal to that in force changes
nothing (R68). -/
def Board.setOffset (b : Board) (d : DriveNo) (o : Offset) : Board :=
  if (b.drv d).rc.offset = o then b
  else b.modRc d fun rc => { rc with offset := o, settling := true, offsetAt := b.now }

/-- Step 1 of a restore: the offset off, then the seek (R84). -/
def Board.restoreSteps (b : Board) (d : DriveNo) : Board :=
  if (b.drv d).rc.offset ≠ .zero then
    (b.setOffset d .zero).modDa d fun da => { da with work := .restoreOffset, workAt := b.now }
  else b.restoreSeek d

/-- The arbiter enters ENGINE_RESTORE and runs the restore (R84). No job is served from here on, after a stop at
the hold limit too (log entry 40). -/
def Board.restore (b : Board) (d : DriveNo) : Board :=
  (b.modDa d fun da =>
    { da with owner := .engineRestore, second := false, served := none, passKind := none, slots := 0,
              atBoundary := false, abandon := false, preempted := false, stopAtEnd := false, missed := false,
              work := .idle }).restoreSteps d

/-- A restore that fails (R85): the drive is live again with its heads in an unknown place. -/
def Board.restoreFail (b : Board) (d : DriveNo) : Board :=
  let pos := (b.drv d).lp.pos
  let heldCmd := (b.drv d).lp.cmd.phase = .held
  let b1 := b.modDa d fun da =>
    { da with seekFault := true, headCyl := none, enginePos := none, served := none, work := .idle,
              owner := .liveIdle, idleStart := some b.now }
  let b2 := b1.note (some d) (.seekFault pos.cyl pos.head)
  let b3 := b2.modLp d fun lp =>
    { lp with pos := { lp.pos with established := false },
              seOver := lp.seOver || heldCmd,
              cmd := if heldCmd then .idle else lp.cmd }
  b3.clearHold d

/-! ### The retry ladder (R95, R96) -/

/-- The end of a repeat of the ladder (R95). An exhausted position shows the step and the passes it stood at (log
entry 41). -/
def Job.endRepeat (j : Job) : Job :=
  if j.rep < j.repeats then { j with step := 0, passes := 0, rep := j.rep + 1 }
  else { j with exhausted := true }

/-- A ladder position brought in line with a ladder (R95). -/
def Job.normalise (j : Job) (ladder : List LadderStep) : Job :=
  if j.exhausted then j
  else
    match ladder[j.step]? with
    | none => j.endRepeat
    | some st =>
      if st.passes ≤ j.passes then
        if ladder.length ≤ j.step + 1 then j.endRepeat else { j with step := j.step + 1, passes := 0 }
      else j

/-- The ladder position after a full pass (R95). -/
def Job.advance (j : Job) (ladder : List LadderStep) : Job :=
  if j.exhausted then j else ({ j with passes := j.passes + 1 }).normalise ladder

/-- The settings of the step a job stands at (R96). -/
def Engine.stepOf (re : Engine) (j : Job) : LadderStep :=
  re.ladder.getD j.step { shift := 0, offset := .zero, recal := false, passes := 1 }

/-! ### SURVEY tracks (R104) -/

/-- The next track of a walk: heads 0..H-1, then the next cylinder (R104). -/
def nextTrack (heads cyl head : Nat) : Nat × Nat :=
  if head + 1 < heads then (cyl, head + 1) else (cyl + 1, 0)

/-- A SURVEY's current track moved past every track with a live SALVAGE or RELAY job (R104); at most eight
such tracks exist. -/
def Board.skipBusy (b : Board) (j : Job) : Nat → Nat × Nat → Nat × Nat
  | 0, t => t
  | fuel + 1, (c, h) =>
    if c ≤ j.endCyl.val && b.re.jobs.any fun x =>
        x.kind ≠ .survey && x.drive = j.drive && x.cyl.val = c && x.head.val = h then
      b.skipBusy j fuel (nextTrack (b.drv j.drive).profile.heads c h)
    else (c, h)

/-! ### The end of a pass or positioning, as the engine takes it (R93, R95, R104..R109) -/

/-- A counter that saturates at 65,535 (R90). -/
def satInc (n : Nat) : Nat := min 65535 (n + 1)

/-- A job back in WAITING, PATIENT, waiting since now (R74, R93). -/
def Board.rewait (b : Board) (serial : Nat) : Board :=
  b.modJob serial fun j => { j with state := .waiting, level := .patient, since := b.now }

/-- A SURVEY after a full pass: a track with failures counted, and on to the next (R104). -/
def Job.nextSurveyTrack (j : Job) (heads : Nat) (found : Bool) : Job :=
  let (c, h) := nextTrack heads j.curCyl j.curHead
  { j with tracksFound := if found then min 2048 (j.tracksFound + 1) else j.tracksFound, curCyl := c,
           curHead := h }

/-- The end of a SURVEY pass for its job; found says that the pass met a failure (R104). -/
def Board.surveyEnd (b : Board) (j : Job) (full found : Bool) : Board :=
  let b1 := if full then
      b.modJob j.serial fun j => j.nextSurveyTrack (b.drv j.drive).profile.heads found
    else b
  match b1.job j.serial with
  | some j => if j.needsPass then b1.rewait j.serial else b1.finish j.serial .complete
  | none => b1

/-- The failures of a SURVEY pass reported for the pass's track (R104), whether or not its job is still live. -/
def Board.reportSurvey (b : Board) (d : DriveNo) : Board :=
  let da := (b.drv d).da
  if da.surveyMask = 0 then b
  else
    b.report { drive := d, cyl := Fin.ofNat 512 da.plan.cyl, head := Fin.ofNat 4 da.plan.head } da.surveyMask
      .survey

/-- The sectors of a RELAY not verified (R107). -/
def Job.unverified (j : Job) : SectorSet :=
  sectorSet ((j.relay.filter fun r => !r.verified).map (·.sector))

/-- The end of a RELAY pass (R105, R106, R107, R109). In VERIFY the stale mark goes before sectors that are all
verified, and in WRITE a fatal source goes before the stale mark (log entry 79). -/
def Board.relayEnd (b : Board) (j : Job) (full : Bool) : Board :=
  match j.relayStep with
  | .prepare =>
    let j1 := b.prepareCheck { j with stale := false, stepPass := if full then j.stepPass + 1 else j.stepPass }
    let b1 := b.modJob j.serial fun _ => j1
    if j1.relayStep = .prepare ∧ 3 ≤ j1.stepPass then b1.finish j.serial .failedUnreadable
    else b1.rewait j.serial
  | .write =>
    if j.fatal then b.finish j.serial .failedStore
    else if full && !j.stale then
      (b.modJob j.serial fun j =>
        { j with relayStep := .verify, stepPass := 0,
                 relay := j.relay.map fun r => { r with verified := false } }).rewait j.serial
    else (b.modJob j.serial fun j => { j with stale := false }).rewait j.serial
  | .verify =>
    if j.stale then (b.modJob j.serial Job.actStale).rewait j.serial
    else if j.relay.all (·.verified) then b.finish j.serial .complete
    else
      let n := if full then j.stepPass + 1 else j.stepPass
      let b1 := b.modJob j.serial fun j => { j with stepPass := n }
      if 2 ≤ n then b1.finish j.serial (.failedVerify j.unverified) else b1.rewait j.serial

/-- A SALVAGE after its pass or positioning: WAITING, SETTLING or finished (R93). -/
def Board.salvageRest (b : Board) (serial : Nat) : Board :=
  match b.job serial with
  | some j => if j.needsPass then b.rewait serial else b.restOrFinish serial
  | none => b

/-- The engine told of the end of a pass, full or abandoned, and whether a SURVEY pass found failures (R79, R95).
A job no longer live is left out. -/
def Board.enginePassEnd (b : Board) (serial : Nat) (full found : Bool) : Board :=
  match b.job serial with
  | none => b
  | some j =>
    let j := { j with total := satInc j.total,
                      abandoned := if full then j.abandoned else satInc j.abandoned }
    let b1 := b.modJob serial fun _ => j
    match j.kind with
    | .salvage =>
      (b1.modJob serial fun j =>
        if full then j.advance b.re.ladder else j.normalise b.re.ladder).salvageRest serial
    | .survey => b1.surveyEnd j full found
    | .relay => b1.relayEnd j full

/-- The engine told that a positioning was abandoned: no counter is raised (R78, R82, R95, R109). -/
def Board.enginePosEnd (b : Board) (serial : Nat) : Board :=
  match b.job serial with
  | none => b
  | some j =>
    match j.kind with
    | .salvage => (b.modJob serial fun j => j.normalise b.re.ladder).salvageRest serial
    | .survey => b.rewait serial
    | .relay => (b.modJob serial Job.actStale).rewait serial

/-! ### The pass (R62, R79, R96, R105, R106) -/

/-- The CAPTURE slots of a SALVAGE pass: each unresolved target, with a pool slot where one can be set
aside (R96), in the order of the job's sector records (log entry 49). -/
def Board.salvagePlans (b : Board) (serial : Nat) : List SalvageSector → Board × List SlotPlan
  | [] => (b, [])
  | r :: rs =>
    if r.status.unresolved then
      let (b1, slot) := b.setAside serial r.sector
      let (b2, ps) := b1.salvagePlans serial rs
      (b2, { sector := r.sector, capture := some { job := serial, sector := r.sector, slot := slot },
             acted := false } :: ps)
    else b.salvagePlans serial rs

/-- A pool slot set aside for a RELAY sector's PREPARE image (R105). -/
def Board.setAsideRelay (b : Board) (serial k : Nat) : Board × Option Nat :=
  match b.ts.freePoolSlot with
  | some slot =>
    ((b.usePool slot).modJob serial fun j => j.modRelay k fun r => { r with aside := some slot }, some slot)
  | none => (b, none)

/-- The CAPTURE slots of a RELAY PREPARE pass on a track: each sector without a source as the directory now
stands (R105), in the order of the job's sector records (log entry 49). -/
def Board.preparePlans (b : Board) (serial : Nat) (t : Track) : List RelaySector → Board × List SlotPlan
  | [] => (b, [])
  | r :: rs =>
    if b.sourceOf t r = .none then
      let (b1, slot) := b.setAsideRelay serial r.sector
      let (b2, ps) := b1.preparePlans serial t rs
      (b2, { sector := r.sector, capture := some { job := serial, sector := r.sector, slot := slot },
             acted := false } :: ps)
    else b.preparePlans serial t rs

/-- All S sectors as CHECK (R104, R107). -/
def checkPlans (sectors : Nat) : List SlotPlan :=
  (List.range sectors).map fun k => { sector := k, capture := none, acted := false }

/-- A fatal WRITE source: the pass is asked to end at the boundary and the job will fail STORE (R106). -/
def Board.fatalWrite (b : Board) (d : DriveNo) (serial : Nat) : Board :=
  (b.modJob serial fun j => { j with fatal := true }).modDa d fun da =>
    { da with atBoundary := true, wbuf := .empty }

/-- The write-buffer fill of a sector requested from its source: its keep entry, else its PREPARE image,
whose capture write it waits for (R106, R141). -/
def Board.startWriteFill (b : Board) (d : DriveNo) (serial k : Nat) : Board :=
  match b.job serial with
  | none => b
  | some j =>
    match b.ts.entry (j.track.addr k), (j.relayRec k).bind (·.image) with
    | e, img =>
      match e.filter (·.usable), img with
      | some e, _ =>
        (b.modDa d fun da => { da with wbuf := .filling k false }).request (.writeFill d k false) e.slot
          (slotReads e.slot Config.imageCells)
      | none, some c =>
        if c.held then
          (b.modDa d fun da => { da with wbuf := .filling k true }).request (.writeFill d k true) c.slot
            (slotReads c.slot Config.imageCells)
        else b.modDa d fun da => { da with wbuf := .waiting k }
      | none, none => b.fatalWrite d serial

/-- The write buffer emptied and its fill withdrawn (R141). -/
def Board.dropWriteFill (b : Board) (d : DriveNo) : Board :=
  (b.dropOps fun op => match op.kind with
    | .writeFill d' _ _ => d' = d
    | _ => false).modDa d fun da => { da with wbuf := .empty }

/-- The PASS set-up of a job's pass, given to the channel with the settings the drive was positioned with
(R62, R95, R96). -/
def Board.givePass (b : Board) (d : DriveNo) (j : Job) : Board :=
  let plan := (b.drv d).da.plan
  let give (b : Board) (tag : PassTag) (ps : List SlotPlan) : Board :=
    b.modRc d fun rc =>
      { rc with shift := plan.shift,
                setup := .pass { cyl := plan.cyl, head := plan.head, shift := plan.shift, tag := tag,
                                 passNo := satInc j.total, plans := ps } }
  let sectors := (b.drv d).profile.sectors
  match j.kind with
  | .salvage =>
    let (b1, ps) := b.salvagePlans j.serial j.sectors
    give b1 (.step j.step) ps
  | .survey => give b .survey (checkPlans sectors)
  | .relay =>
    match j.relayStep with
    | .prepare =>
      let (b1, ps) := b.preparePlans j.serial j.track j.relay
      give b1 .prepare ps
    | .write => give b .verify (checkPlans sectors)
    | .verify => give b .verify (checkPlans sectors)

/-- The arbiter enters ENGINE_PASS and gives the set-up or arms the write path (R79, R106). -/
def Board.passStart (b : Board) (d : DriveNo) (j : Job) : Board :=
  let isWrite := j.kind = .relay ∧ j.relayStep = .write
  let b1 := b.modDa d fun da =>
    { da with owner := .enginePass, passKind := some (if isWrite then .write else .read), slots := 0,
              atBoundary := false, stopAtEnd := false, missed := false, surveyMask := 0, work := .idle,
              wbuf := .empty, writing := none, writeImage := [] }
  if isWrite then
    b1.startWriteFill d j.serial (((b.drv d).rt.position + 1) % (b.drv d).profile.sectors)
  else b1.givePass d j

/-- Positioning complete (R77): the pass starts with speed doubt clear; otherwise no pass is made and the
drive is restored (R79). -/
def Board.posComplete (b : Board) (d : DriveNo) : Board :=
  let x := b.drv d
  let b1 := b.modDa d fun da =>
    { da with enginePos := some { cyl := da.plan.cyl, head := da.plan.head, offset := da.plan.offset },
              work := .idle }
  match b.servedJob d with
  | some j =>
    if x.rt.doubt then
      ((b1.enginePosEnd j.serial).applyPending d).restore d
    else b1.passStart d j
  | none => (b1.applyPending d).restore d

/-! ### Positioning (R77) -/

/-- Step 5: the pass's offset on. -/
def Board.posOffsetOn (b : Board) (d : DriveNo) : Board :=
  let x := b.drv d
  if x.rc.offset = x.da.plan.offset then b.posComplete d
  else (b.setOffset d x.da.plan.offset).modDa d fun da => { da with work := .offsetOn, workAt := b.now }

/-- Step 4: the track head. -/
def Board.posHead (b : Board) (d : DriveNo) : Board :=
  (b.modPins d fun p => { p with head := Fin.ofNat 4 (b.drv d).da.plan.head }).posOffsetOn d

/-- Step 3: the seek to the track cylinder, unless the heads are there. -/
def Board.posSeek (b : Board) (d : DriveNo) : Board :=
  let da := (b.drv d).da
  if da.headCyl.map (·.val) = some da.plan.cyl then b.posHead d
  else (b.sendMove d).modDa d fun da => { da with work := .seek, workAt := b.now }

/-- Step 2: a recalibrate where one is asked, forced, or the head cylinder is UNKNOWN. -/
def Board.posRecal (b : Board) (d : DriveNo) : Board :=
  let da := (b.drv d).da
  if da.plan.recal || da.headCyl.isNone then
    (b.sendMove d).modDa d fun da => { da with work := .recal, workAt := b.now }
  else b.posSeek d

/-- Step 1: an offset other than NONE off first. -/
def Board.posBegin (b : Board) (d : DriveNo) : Board :=
  if (b.drv d).rc.offset ≠ .zero then
    (b.setOffset d .zero).modDa d fun da => { da with work := .offsetOff, workAt := b.now }
  else b.posRecal d

/-! ### Takes and decisions (R76, R80) -/

/-- The settings the engine supplies for a job's pass (R77, R96, R104). -/
def Board.settings (b : Board) (j : Job) : PosPlan :=
  match j.kind with
  | .salvage =>
    let st := b.re.stepOf j
    { cyl := j.cyl.val, head := j.head.val, shift := st.shift, offset := st.offset,
      recal := st.recal || j.recal }
  | .survey => { PosPlan.none with cyl := j.curCyl, head := j.curHead }
  | .relay => { PosPlan.none with cyl := j.cyl.val, head := j.head.val }

/-- A job made ACTIVE: PATIENT again, a SURVEY's current track moved on, a recalibrate mark used up (R74,
R93, R96, R104). -/
def Board.activate (b : Board) (j : Job) : Board :=
  b.modJob j.serial fun j =>
    let j := { j with state := .active, level := .patient }
    match j.kind with
    | .survey =>
      let (c, h) := b.skipBusy j 8 (j.curCyl, j.curHead)
      { j with curCyl := c, curHead := h }
    | _ => { j with recal := false }

/-- The drive handed to a job: the arbiter enters ENGINE_POSITION and runs the steps of R77, and the answer
is true. A SURVEY that the move carried past its range finishes COMPLETE, and the answer is false: the
positioning is abandoned (R104). -/
def Board.serve (b : Board) (d : DriveNo) (j : Job) : Bool × Board :=
  let plan0 := b.settings j
  let b1 := b.activate j
  match b1.job j.serial with
  | some j1 =>
    if j1.kind = .survey ∧ !j1.needsPass then (false, b1.finish j.serial .complete)
    else
      let plan := if j1.kind = .survey then b1.settings j1 else plan0
      let b2 := b1.modDa d fun da =>
        { da with owner := .enginePosition, served := some j.ref, plan := plan, retryUsed := false,
                  abandon := false, preempted := false, work := .idle, passKind := none }
      (true, b2.posBegin d)
  | none => (false, b1)

/-- The decision between passes (R80); the fuel counts SURVEY jobs that end at their positioning. -/
def Board.decideFor (d : DriveNo) : Nat → Board → Board
  | 0, b => b.restore d
  | fuel + 1, b =>
    let b1 := (b.applyPending d).modDa d fun da => { da with served := none, work := .idle }
    let da := (b1.drv d).da
    if da.held || da.share.mode = .liveOnly then b1.restore d
    else
      match b1.choose d with
      | none => b1.restore d
      | some j =>
        let (served, b2) := b1.serve d j
        if served then b2 else Board.decideFor d fuel b2

/-- The decision between passes (R80). -/
def Board.decide (b : Board) (d : DriveNo) : Board := Board.decideFor d 8 b

/-- A take of drive d for a job (R76). -/
def Board.takeFor (b : Board) (d : DriveNo) (j : Job) : Board :=
  let (served, b1) := b.serve d j
  if served then b1 else (b1.modDa d fun da => { da with owner := .enginePosition }).decide d

/-- The job a LIVE_IDLE arbiter may take the drive for now (R76). Under SALVAGE_ONLY a PATIENT job is taken while the
seek-fault mark is set too (log entry 70). -/
def Board.takeNow (b : Board) (d : DriveNo) : Option Job :=
  let da := (b.drv d).da
  if da.owner ≠ .liveIdle then none
  else
    match da.share.mode with
    | .salvageOnly => b.choose d
    | .liveOnly => none
    | _ =>
      if b.pressing d then b.choose d
      else if da.seekFault then none
      else
        match da.idleStart with
        | some t => if da.share.grace * 1000 ≤ b.since t then b.choose d else none
        | none => none

/-- The take that R76 makes now, if any. -/
def Board.tryTake (b : Board) (d : DriveNo) : Board :=
  match b.takeNow d with
  | some j => b.takeFor d j
  | none => b

/-- The arbiter told that the live command has ended (R71, R76). A take in TAKING chooses among the eligible jobs,
PATIENT ones too while the seek-fault mark is set (log entry 58). -/
def Board.liveEnded (b : Board) (d : DriveNo) : Board :=
  let owner := (b.drv d).da.owner
  match owner with
  | .liveBusy => (b.applyPending d).goIdle d
  | .taking =>
    let b1 := b.applyPending d
    if (b1.drv d).da.held then b1.goIdle d
    else
      match b1.choose d with
      | some j => b1.takeFor d j
      | none => b1.goIdle d
  | _ => b

/-- A positioning abandoned: the job told, then the decision between passes (R78, R80, R82, R83). -/
def Board.abandonPosition (b : Board) (d : DriveNo) : Board :=
  let b1 := match (b.drv d).da.served with
    | some r => b.enginePosEnd r.serial
    | none => b
  b1.decide d

end Sys2Proof.Machine
end

