-- ==== Sys2Proof/Machine/Cells.lean ====
section
/-! DEFINITION. The read channel's arithmetic: zones, bits, cell margins, word qualities (R54..R57) and the
hunt for the sync mark (R3, R58). -/

namespace Sys2Proof.Machine

/-- The positions of a frame's transitions (R54). -/
def positions (f : CellFrame) : List Nat := (List.range 32).filter fun t => f.getLsbD t

/-- Transitions in a cell's clock zone: positions 28..31 of the frame before and 0..3 of its own (R54). -/
def clockCount (before f : CellFrame) : Nat :=
  (positions before).countP (28 ≤ ·) + (positions f).countP (· ≤ 3)

/-- The transitions in a cell's data window at shift s: positions 8+s..23+s (R55). -/
def windowAt (s : Int) (f : CellFrame) : List Nat :=
  (positions f).filter fun t => 8 + s ≤ (t : Int) ∧ (t : Int) ≤ 23 + s

/-- The stray transitions of a cell at shift s: in 4..27 and outside the window (R55). -/
def straysAt (s : Int) (f : CellFrame) : List Nat :=
  (positions f).filter fun t => 4 ≤ t ∧ t ≤ 27 ∧ ¬ (8 + s ≤ (t : Int) ∧ (t : Int) ≤ 23 + s)

/-- The bit a cell decodes as (R55). -/
def cellBit (s : Int) (f : CellFrame) : Bool := !(windowAt s f).isEmpty

/-- The margin of one stray: the smaller of 7 and d - 1 (R56). -/
def strayMargin (s : Int) (t : Nat) : Nat :=
  let d := if (t : Int) < 8 + s then 8 + s - t else (t : Int) - (23 + s)
  min 7 (d - 1).toNat

/-- The data margin of a cell (R56). -/
def dataMargin (s : Int) (f : CellFrame) : Nat :=
  match windowAt s f with
  | [] => 7
  | [t] => let p := ((t : Int) - (8 + s)).toNat; min p (15 - p)
  | _ => 0

/-- The cell margin (R56). -/
def cellMargin (s : Int) (before f : CellFrame) : Nat :=
  if clockCount before f ≠ 1 then 0
  else ((straysAt s f).map (strayMargin s)).foldl min (dataMargin s f)

/-- The word of up to 16 bits, the first in the highest place (R2). -/
def wordOfBits (bits : List Bool) : Word :=
  bits.foldl (fun w b => (w <<< 1) ||| (BitVec.ofBool b).setWidth 16) 0

/-- The least cell margin of a word's frames (R57). -/
def wordQuality (s : Int) : CellFrame → List CellFrame → Nat → Nat
  | _, [], q => q
  | before, f :: fs, q => wordQuality s f fs (min q (cellMargin s before f))

/-- n words with their qualities from 16 n frames (R57, R59). -/
def readWords (s : Int) : Nat → CellFrame → List CellFrame → List (Word × Nat)
  | 0, _, _ => []
  | n + 1, before, fs =>
    let own := fs.take 16
    (wordOfBits (own.map (cellBit s)), wordQuality s before own 7) ::
      readWords s n (own.getLastD before) (fs.drop 16)

/-- The number of the cell at which the hunt finds the sync mark, from a run and a cell count, or none
within the frames (R3, R58). -/
def syncCell (s : Int) : Nat → Nat → List CellFrame → Option Nat
  | _, _, [] => none
  | run, n, f :: fs =>
    if cellBit s f then
      if 24 ≤ run then some (n + 1) else syncCell s 0 (n + 1) fs
    else syncCell s (min 24 (run + 1)) (n + 1) fs

/-- The run length after frames without a sync mark (R58). -/
def runAfter (s : Int) (run : Nat) (fs : List CellFrame) : Nat :=
  fs.foldl (fun r f => if cellBit s f then 0 else min 24 (r + 1)) run

end Sys2Proof.Machine
end

