-- ==== Sys2Proof/Machine/Channel.lean ====
section
/-! DEFINITION. The read channel's slots: opening, reports, the hand-over of captures and the engine's answer,
stops and withdrawals (R61..R67, R98, R99, R104, R105, R107). -/

namespace Sys2Proof.Machine

/-- One of the channel's two capture buffers (R64). -/
def Channel.buf (rc : Channel) (i : Fin 2) : CaptureBuffer :=
  match i with
  | 0 => rc.buf0
  | 1 => rc.buf1

/-- The channel with one capture buffer replaced. -/
def Channel.setBuf (rc : Channel) (i : Fin 2) (x : CaptureBuffer) : Channel :=
  match i with
  | 0 => { rc with buf0 := x }
  | 1 => { rc with buf1 := x }

/-- A FREE buffer, if one is (R64). -/
def Channel.freeBuf (rc : Channel) : Option (Fin 2) :=
  if rc.buf0.state = .free then some 0 else if rc.buf1.state = .free then some 1 else none

/-- The buffer of drive d made FREE. -/
def Board.freeBuf (b : Board) (d : DriveNo) (i : Fin 2) : Board :=
  b.modRc d fun rc => rc.setBuf i .empty

/-- The hunt of a slot begun (R58, R64): in CAPTURE mode a FREE buffer receives it; with both busy it is
read in CHECK mode and is not kept, and its set-aside slot is freed at this opening pulse (log entry 69). -/
def Board.beginHunt (b : Board) (d : DriveNo) (k : Nat) (cap : Option CaptureFor) : Board :=
  let rc := (b.drv d).rc
  let start (rc : Channel) (who : Option CaptureFor) (i : Option (Fin 2)) (lost : Bool) : Channel :=
    { rc with slotShift := rc.shift, activity := .hunting, slotNo := k, slotFor := who, slotBuf := i,
              notKept := lost, run := 0, cells := 0, wordIndex := 0, check := 0, header := none,
              found := false, sound := false }
  match cap, rc.freeBuf with
  | none, _ => b.modRc d fun rc => start rc none none false
  | some c, some i =>
    b.modRc d fun rc =>
      (start rc (some c) (some i) false).setBuf i { CaptureBuffer.empty with state := .receiving, who := c }
  | some c, none => (b.modRc d fun rc => start rc none none true).dropAside c

/-- The channel at an opening pulse under a LIVE set-up for that slot (R61). -/
def Board.openLive (b : Board) (d : DriveNo) (k : Nat) : Board :=
  match (b.drv d).rc.setup with
  | .live x =>
    if x.sector = k then
      (b.modRc d fun rc => { rc with setup := .live { x with capture := none } }).beginHunt d k x.capture
    else b
  | _ => b

/-- The channel at an opening pulse under a PASS set-up: a listed number is acted on the first time it
opens (R62). -/
def Board.openPass (b : Board) (d : DriveNo) (k : Nat) : Board :=
  match (b.drv d).rc.setup with
  | .pass x =>
    match x.plans.find? fun p => p.sector = k && !p.acted with
    | some p =>
      (b.modRc d fun rc => { rc with setup := .pass { x with plans := x.plans.map fun q =>
        if q.sector = k then { q with acted := true } else q } }).beginHunt d k p.capture
    | none => b
  | _ => b

/-- Set-aside pool slots of a set-up not acted on freed, the set-up gone, the shift back at 0 (R61, R62,
R67). -/
def Board.withdraw (b : Board) (d : DriveNo) : Board :=
  let rc := (b.drv d).rc
  let gone : List CaptureFor := match rc.setup with
    | .none => []
    | .live x => x.capture.toList
    | .pass x => (x.plans.filter fun p => !p.acted).flatMap fun p => p.capture.toList
  (gone.foldl Board.dropAside b).modRc d fun rc => { rc with setup := .none, shift := 0 }

/-- The capture write of a buffer requested into a pool slot (R65). -/
def Board.writeCapture (b : Board) (d : DriveNo) (i : Fin 2) (slot : Nat) : Board :=
  let x := (b.drv d).rc.buf i
  (b.modRc d fun rc => rc.setBuf i { x with state := .writing, who := { x.who with slot := some slot } }).request
    (.capture d i) slot (slotWrites slot x.words x.quals)

/-- The oldest of the held unlocked captures of the least total (R99). -/
def lowestCapture : List Capture → Option Capture
  | [] => none
  | c :: cs =>
    match lowestCapture cs with
    | none => if c.held && !c.lock then some c else none
    | some x => if c.held && !c.lock && c.total ≤ x.total then some c else some x

/-- The engine's answer to a capture of a SALVAGE sector (R99). -/
def Board.handSalvage (b : Board) (d : DriveNo) (i : Fin 2) : Board :=
  let x := (b.drv d).rc.buf i
  match b.job x.who.job with
  | none => b.freeBuf d i
  | some j =>
    match j.sectorRec x.who.sector with
    | none => b.freeBuf d i
    | some r =>
      if !r.status.unresolved then (b.dropAside x.who).freeBuf d i
      else
        match x.who.slot with
        | some slot => b.writeCapture d i slot
        | none =>
          match lowestCapture r.caps with
          | some c =>
            if c.total ≤ x.total then
              (b.modJob j.serial fun j => j.modSector r.sector fun r =>
                { r with caps := (r.caps.filter (·.slot ≠ c.slot)) ++ [Capture.pendingAt c.slot] }).writeCapture
                d i c.slot
            else b.freeBuf d i
          | none => b.freeBuf d i

/-- The engine's answer to a capture of a RELAY PREPARE pass: a good image with a slot set aside becomes
the sector's source; every other is dropped (R105). -/
def Board.handPrepare (b : Board) (d : DriveNo) (i : Fin 2) : Board :=
  let x := (b.drv d).rc.buf i
  match b.job x.who.job, x.who.slot with
  | some j, some slot =>
    if x.sound && x.outcome = .matched then
      let c : Capture := { slot := slot, held := false, lock := false, tag := x.tag, passNo := x.passNo,
                           shift := x.shift, offset := x.offset, total := x.total, time := x.time }
      (b.modJob j.serial fun j => j.modRelay x.who.sector fun r =>
        { r with aside := none, image := some c }).writeCapture d i slot
    else (b.dropAside x.who).freeBuf d i
  | _, _ => b.freeBuf d i

/-- The report of a LIVE slot to LP, and the capture hand-over that follows it (R31, R32). image says that an
image was read. LIVE_MISPLACED comes after the suspect report with its examination (log entry 85). -/
def Board.liveReport (b : Board) (d : DriveNo) (image : Bool) : Board :=
  let rc := (b.drv d).rc
  let a := (b.drv d).lp.cmd.target
  let failed (b : Board) : Board := b.report a.track (sectorSet [a.sector.val]) .live
  let b1 :=
    if !image then failed b
    else
      match rc.header with
      | some (outcome, h) =>
        if !rc.sound then failed b
        else if outcome = .matched then b
        else (failed b).note (some d) (.liveMisplaced a h outcome)
      | none => failed b
  match rc.slotBuf with
  | none => b1
  | some i =>
    if !image then b1
    else
      match rc.header with
      | some (_, h) =>
        if rc.sound && (h.cyl ≠ a.cyl.val || h.head ≠ a.head.val) then
          (b1.dropAside (rc.buf i).who).freeBuf d i
        else b1.handSalvage d i
      | none => b1.handSalvage d i

/-- The report of a PASS slot to the engine (R63, R99, R104, R105, R107). -/
def Board.passReport (b : Board) (d : DriveNo) (x : PassSetup) (image : Bool) : Board :=
  let rc := (b.drv d).rc
  let good := image && rc.sound && rc.header.any (·.1 = .matched)
  match x.tag, (b.drv d).da.served with
  | .survey, _ =>
    if good then b
    else b.modDa d fun da => { da with surveyMask := da.surveyMask ||| sectorSet [rc.slotNo] }
  | .verify, some r =>
    if good then b.modJob r.serial fun j => j.modRelay rc.slotNo fun r => { r with verified := true } else b
  | .prepare, _ =>
    match rc.slotBuf with
    | some i => if image then b.handPrepare d i else b
    | none => b
  | .step _, _ =>
    match rc.slotBuf with
    | some i => if image then b.handSalvage d i else b
    | none => b
  | _, _ => b

/-- The report fields put into the receiving buffer, which becomes HANDED (R63, R64). -/
def Board.fillReport (b : Board) (d : DriveNo) (tag : PassTag) (passNo : Nat) : Board :=
  b.modRc d fun rc =>
    match rc.slotBuf with
    | none => rc
    | some i =>
      let x := rc.buf i
      rc.setBuf i
        { x with state := .handed, sound := rc.sound,
                 outcome := (rc.header.map (·.1)).getD .address, time := rc.capTime,
                 total := x.quals.sum, shift := rc.slotShift, offset := rc.offset, tag := tag,
                 passNo := passNo }

/-- The receiving buffer of a slot that gave no image made FREE, and its set-aside slot freed (R64). -/
def Board.loseBuffer (b : Board) (d : DriveNo) : Board :=
  let rc := (b.drv d).rc
  match rc.slotBuf with
  | none => b
  | some i => (b.dropAside (rc.buf i).who).freeBuf d i

/-- The slot closed: nothing further to report from it. -/
def Board.idleSlot (b : Board) (d : DriveNo) : Board :=
  b.modRc d fun rc => { rc with activity := .idle, slotFor := none, slotBuf := none, notKept := false }

/-- The result of the open slot reported to the block that set the channel up, and the slot IDLE (R63). -/
def Board.reportSlot (b : Board) (d : DriveNo) : Board :=
  let rc := (b.drv d).rc
  let image := rc.activity = .complete ∧ rc.found
  if rc.activity = .idle then b
  else
    match rc.setup with
    | .none => (b.loseBuffer d).idleSlot d
    | .live _ =>
      let b1 := if image then b.fillReport d .live 0 else b.loseBuffer d
      ((b1.liveReport d image).idleSlot d).withdraw d
    | .pass x =>
      let b1 := if image then b.fillReport d x.tag x.passNo else b.loseBuffer d
      (b1.passReport d x image).idleSlot d

/-- The channel stopped at once (R67): a completed image is reported, a slot without one is lost, one COMPLETE by
NO_SYNC among them (R29; log entry 13), and the set-up is withdrawn. -/
def Board.stopChannel (b : Board) (d : DriveNo) : Board :=
  let rc := (b.drv d).rc
  let b1 :=
    match rc.activity with
    | .complete => if rc.found then b.reportSlot d else (b.loseBuffer d).idleSlot d
    | .idle => b
    | .hunting => (b.loseBuffer d).idleSlot d
    | .reading => (b.loseBuffer d).idleSlot d
  b1.withdraw d

/-- The end of a pass (R79): the set-up withdrawn or the write path disarmed, a SURVEY's failures reported (R104),
and the engine told. -/
def Board.endPass (b : Board) (d : DriveNo) (full : Bool) : Board :=
  let da := (b.drv d).da
  let b1 := (((b.withdraw d).dropWriteFill d).reportSurvey d).examine.modDa d fun da =>
    { da with passKind := none, slots := 0, atBoundary := false, stopAtEnd := false, missed := false,
              surveyMask := 0, writing := none, writeImage := [] }
  match da.served with
  | some r => b1.enginePassEnd r.serial full (da.surveyMask ≠ 0)
  | none => b1

/-- A pass that ends at a closing pulse, and the decision between passes (R79, R80). -/
def Board.passEnd (b : Board) (d : DriveNo) (full : Bool) : Board := (b.endPass d full).decide d

/-- A pass that a hold-limit stop ends as abandoned, and the restore (R83). -/
def Board.passStop (b : Board) (d : DriveNo) : Board := ((b.endPass d false).applyPending d).restore d

end Sys2Proof.Machine
end

