-- ==== Sys2Proof/Machine/Encode.lean ====
section
/-! DEFINITION. How fields, replies, notices and frames are laid out as bytes (R154, R163, R166..R173, section
11.9). The part's records hold replies and notices as data; TxFrame.bytes is what goes on the line. -/

namespace Sys2Proof.Machine

/-! ### Fields (R163) -/

/-- A number as one byte. -/
def byteOf (n : Nat) : Byte := BitVec.ofNat 8 n

/-- A number in w bytes, high byte first (R163). -/
def bytesOf : Nat → Nat → List Byte
  | 0, _ => []
  | w + 1, n => bytesOf w (n / 256) ++ [byteOf n]

/-- A number in w bytes, the greatest they can hold where it is greater (R173). -/
def satBytes (w n : Nat) : List Byte := bytesOf w (min n (256 ^ w - 1))

/-- A mark or option (R163). -/
def markByte (b : Bool) : Byte := if b then 1 else 0

/-- A time-base reading (R163). -/
def timeBytes (t : Time) : List Byte := bytesOf 5 t.toNat

/-- A signed number (R163). -/
def signedByte (s : Int) : Byte := BitVec.ofInt 8 s

/-- An optional field of w bytes (R163). -/
def optBytes (w : Nat) : Option (List Byte) → List Byte
  | none => 0 :: List.replicate w 0
  | some bs => 1 :: bs

/-- A sector address (R163). -/
def Addr.bytes (a : Addr) : List Byte :=
  [byteOf a.drive.val] ++ bytesOf 2 a.cyl.val ++ [byteOf a.head.val, byteOf a.sector.val]

/-- A track (R163). -/
def Track.bytes (t : Track) : List Byte :=
  [byteOf t.drive.val] ++ bytesOf 2 t.cyl.val ++ [byteOf t.head.val]

/-- A sector set (R163). -/
def setBytes (m : SectorSet) : List Byte := bytesOf 2 m.toNat

/-- A volume (R163). -/
def volumeBytes : Option (BitVec 12) → List Byte
  | none => [0xFF, 0xFF]
  | some v => bytesOf 2 v.toNat

/-- The words of an image. -/
def wordsBytes (ws : List Word) : List Byte := ws.flatMap fun w => bytesOf 2 w.toNat

/-- An offset (R163). -/
def Offset.code : Offset → Nat
  | .zero => 0
  | .inward => 1
  | .outward => 2

/-- A drive, or 0xFF for none (R172). -/
def driveByte : Option DriveNo → Byte
  | none => 0xFF
  | some d => byteOf d.val

/-- The codes of R164. -/
def Status.code : Status → Nat
  | .ok => 0 | .busy => 1 | .badRequest => 2 | .range => 3 | .notReady => 4 | .noRoom => 5
  | .conflict => 6 | .notFound => 7 | .denied => 8 | .damaged => 9

/-- Owner states in the order of R70. -/
def Owner.code : Owner → Nat
  | .liveIdle => 0 | .liveBusy => 1 | .taking => 2 | .enginePosition => 3 | .enginePass => 4
  | .engineRestore => 5 | .offline => 6

/-- Share modes in the order of R72. -/
def ShareMode.code : ShareMode → Nat
  | .liveFirst => 0 | .salvageFirst => 1 | .salvageOnly => 2 | .liveOnly => 3

/-- Phases in the order of section 2.1. -/
def Phase.code : Phase → Nat
  | .none => 0 | .held => 1 | .seeking => 2 | .awaitingSlot => 3 | .transfer => 4

/-- Emit-buffer states in the order of R24; an absorption buffer is INVALID (R37). -/
def EmitState.code : EmitState → Nat
  | .invalid => 0 | .filling => 1 | .valid => 2 | .absorbing => 0

/-- Set-up kinds in the order of R53. -/
def Setup.code : Setup → Nat
  | .none => 0 | .live _ => 1 | .pass _ => 2

/-- Tracker states in the order of section 3.1. -/
def TrackerState.code : TrackerState → Nat
  | .searching => 0 | .locked => 1 | .freeRun => 2

/-- Job kinds (R169). -/
def JobKind.code : JobKind → Nat
  | .salvage => 0 | .relay => 1 | .survey => 2

/-- Job states in the order of section 6.1. -/
def JobState.code : JobState → Nat
  | .waiting => 0 | .active => 1 | .settling => 2

/-- Take levels in the order of R74. -/
def TakeLevel.code : TakeLevel → Nat
  | .patient => 0 | .pressing => 1

/-- RELAY steps in the order of section 6.1. -/
def RelayStep.code : RelayStep → Nat
  | .prepare => 0 | .write => 1 | .verify => 2

/-- Sector statuses in the order of R97. -/
def SectorStatus.code : SectorStatus → Nat
  | .pending => 0 | .provisional => 1 | .resolved => 2 | .ambiguous => 3 | .misplaced => 4
  | .superseded => 5

/-- Image sources in the order of R169. -/
def ImageSource.code : ImageSource → Nat
  | .none => 0 | .keep => 1 | .prepare => 2

/-- Pass tags in captures: a ladder step, 0xFF for LIVE, 0xFE for a PREPARE image (R169, R171). -/
def PassTag.byte : PassTag → Byte
  | .step n => byteOf n
  | .live => 0xFF
  | .prepare => 0xFE
  | .verify => 0xFE
  | .survey => 0xFE

/-- Suspect sources (R172). -/
def Source.code : Source → Nat
  | .live => 0 | .survey => 1 | .store => 2 | .relay => 3

/-- Error kinds, finders and owners in the order of R129 and R151. -/
def ErrorKind.code : ErrorKind → Nat
  | .single => 0 | .double => 1

def Finder.code : Finder → Nat
  | .scrub => 0 | .fill => 1 | .solve => 2 | .fetch => 3 | .patch => 4 | .relay => 5

def SlotOwner.code : SlotOwner → Nat
  | .keep => 0 | .capture => 1 | .free => 2

/-- Reasons of a misplaced header: ADDRESS 0, VOLUME 1 (R173). -/
def HeaderOutcome.reason : HeaderOutcome → Nat
  | .volume => 1
  | .address => 0
  | .matched => 0

/-! ### Records -/

/-- The state code of a keep entry (section 11.9). -/
def KeepEntry.stateCode (e : KeepEntry) : Nat :=
  (match e.kind with
    | .recovered r => r.grade.code
    | .diverted => 3
    | .placed => 4) + if e.damaged then 8 else 0

/-- Flips, captures used and minimum confidence of an entry; 0 for a state without grade fields (11.9). -/
def KeepEntry.rating (e : KeepEntry) : Nat × Nat × Nat :=
  match e.kind with
  | .recovered r => (r.flips, r.used - 1, r.minConf)
  | .diverted => (0, 0, 0)
  | .placed => (0, 0, 0)

/-- The 48-bit field of a keep-entry record (section 11.9). -/
def KeepEntry.field (e : KeepEntry) : Nat :=
  let (flips, used, conf) := e.rating
  e.addr.drive.val * 2 ^ 46 + e.addr.cyl.val * 2 ^ 37 + e.addr.head.val * 2 ^ 35 +
    e.addr.sector.val * 2 ^ 31 + e.slot * 2 ^ 18 + (if e.exported then 2 ^ 17 else 0) +
    e.stateCode * 2 ^ 13 + flips * 2 ^ 9 + used * 2 ^ 6 + conf

/-- The 15 bytes of a keep-entry record (section 11.9). -/
def KeepEntry.bytes (e : KeepEntry) : List Byte :=
  bytesOf 6 e.field ++ timeBytes e.time ++ bytesOf 4 e.epoch

/-- A log entry of GET_STORE_LOG (R171). -/
def LogEntry.bytes (e : LogEntry) : List Byte :=
  [byteOf e.kind.code] ++ bytesOf 2 e.slot ++
    [byteOf e.cell, byteOf e.syndrome, byteOf e.finder.code, byteOf e.owner.code] ++ timeBytes e.time ++
    bytesOf 4 e.epoch

/-- A suspect entry of LIST_SUSPECTS (R170). -/
def Suspect.bytes (x : Suspect) : List Byte :=
  x.track.bytes ++ setBytes x.mask ++ [byteOf x.count] ++ timeBytes x.first ++ timeBytes x.last ++
    [byteOf x.source.code]

/-- A profile (R166, R167). -/
def Profile.bytes (p : Profile) : List Byte :=
  bytesOf 2 p.cylinders ++ [byteOf p.heads, byteOf p.sectors] ++ volumeBytes p.volume ++
    bytesOf 2 p.period

/-- A ladder (R168). -/
def ladderBytes (l : List LadderStep) : List Byte :=
  byteOf l.length :: l.flatMap fun st =>
    [signedByte st.shift, byteOf st.offset.code, markByte st.recal, byteOf st.passes]

/-- The fields of a capture in GET_JOB and FETCH_CAPTURE after its slot and marks (R169, R171). -/
def Capture.bytes (c : Capture) : List Byte :=
  [c.tag.byte] ++ bytesOf 2 c.passNo ++ [signedByte c.shift, byteOf c.offset.code] ++
    bytesOf 2 c.total ++ timeBytes c.time

/-- A result's grade, flips, minimum confidence and captures used (R169). -/
def Rating.bytes (r : Rating) : List Byte :=
  [byteOf r.grade.code, byteOf r.flips, byteOf r.minConf, byteOf r.used]

/-! ### GET_DRIVE (R52, R53, R89, R166) -/

/-- The arbiter's fields (R89, R166). A head cylinder UNKNOWN is an optional field absent (log entry 56). -/
def Board.arbiterBytes (b : Board) (d : DriveNo) : List Byte :=
  let da := (b.drv d).da
  [byteOf da.owner.code] ++ optBytes 1 (da.served.map fun r => [byteOf r.id]) ++
    [markByte da.held] ++ optBytes 4 (da.holdStart.map fun t => satBytes 4 (b.since t)) ++
    optBytes 2 (da.headCyl.map fun c => bytesOf 2 c.val) ++
    optBytes 4 (da.enginePos.map fun p => bytesOf 2 p.cyl ++ [byteOf p.head, byteOf p.offset.code]) ++
    [markByte da.seekFault, markByte da.lost] ++
    optBytes 4 (da.offlineStart.map fun t => satBytes 4 (b.since t / 1000)) ++
    [byteOf da.share.mode.code] ++ optBytes 1 (da.share.pending.map fun m => [byteOf m.code]) ++
    bytesOf 2 da.share.hold ++ bytesOf 2 da.share.grace ++ bytesOf 2 da.share.starve

/-- The live position, the record's phase and the emit buffer (R166). -/
def LivePath.bytes (lp : LivePath) : List Byte :=
  bytesOf 2 lp.pos.cyl.val ++ [byteOf lp.pos.head.val, markByte lp.pos.established] ++
    [byteOf lp.cmd.phase.code, byteOf lp.buf.state.code] ++
    optBytes 5 (if lp.buf.state.code = 0 then none else some lp.buf.addr.bytes)

/-- The channel's fields (R53). -/
def Channel.bytes (rc : Channel) : List Byte :=
  [signedByte rc.shift, byteOf rc.offset.code, markByte rc.settling, byteOf rc.setup.code]

/-- The tracker's fields (R52). Wrap suppression and speed doubt are sent as marks (log entry 76). -/
def Tracker.bytes (rt : Tracker) : List Byte :=
  [byteOf rt.state.code, byteOf rt.position] ++ bytesOf 4 rt.revCount ++ [markByte rt.suppress] ++
    optBytes 5 (rt.lastIndex.map timeBytes) ++ [byteOf rt.history.length] ++
    optBytes 4 (rt.average.map (bytesOf 4)) ++ [markByte rt.doubt, byteOf rt.inBand] ++
    bytesOf 2 rt.slipCount

/-- The reply fields of GET_DRIVE (R166). -/
def Board.driveBytes (b : Board) (d : DriveNo) : List Byte :=
  let x := b.drv d
  b.arbiterBytes d ++ x.lp.bytes ++
    [markByte x.lp.sub, byteOf x.lp.grade.code, markByte x.lp.divert, markByte (b.re.auto.get d)] ++
    x.rc.bytes ++ x.rt.bytes

/-! ### GET_JOB and LIST_JOBS (R169) -/

/-- The current track of a SURVEY. -/
def Job.currentBytes (j : Job) : List Byte :=
  [byteOf j.drive.val] ++ bytesOf 2 j.curCyl ++ [byteOf j.curHead]

/-- The status byte of sector k in a job part (R169); 0 for a target of a RELAY, whose sectors have no status
(log entry 54). -/
def Job.statusByte (j : Job) (k : Nat) : Byte :=
  match j.kind with
  | .salvage => ((j.sectorRec k).map fun r => byteOf r.status.code).getD 0xFF
  | .relay => if (j.relayRec k).isSome then 0 else 0xFF
  | .survey => 0xFF

/-- The job part (R169). A tally whose pass number is none sends pass number 0 and count 0 (log entry 43); the fields
that a job's kind does not have are sent as they stand in its record (log entry 65), and the tally's count in one
byte (log entry 66). -/
def Job.partBytes (j : Job) : List Byte :=
  [byteOf j.id, byteOf j.kind.code, byteOf j.drive.val, byteOf j.state.code] ++
    (if j.kind = .survey then
      bytesOf 2 j.cyl.val ++ bytesOf 2 j.endCyl.val ++ j.currentBytes ++ bytesOf 2 j.tracksFound
    else j.track.bytes) ++
    setBytes j.target ++ [byteOf j.accept.code, byteOf j.repeats, markByte j.retain] ++
    [byteOf j.step, byteOf j.passes, byteOf j.rep, markByte j.exhausted, markByte j.recal] ++
    bytesOf 2 ((j.tally.map (·.1)).getD 0) ++ [byteOf ((j.tally.map (·.2)).getD 0)] ++
    bytesOf 2 j.total ++ bytesOf 2 j.abandoned ++ [byteOf j.seekFails, byteOf j.level.code] ++
    timeBytes j.since ++ timeBytes j.filed ++
    [byteOf j.relayStep.code, byteOf j.stepPass, markByte j.stale, markByte j.written] ++
    (List.range 16).map j.statusByte

/-- A pair's place in the solve unit: neither 0, queued 1, in flight 2 (R169). -/
def Solver.place (su : Solver) (serial k : Nat) : Nat :=
  if su.flight.any fun f => f.job = serial && f.sector = k then 2
  else if su.queue.contains (serial, k) then 1 else 0

/-- An entry of a capture set in a sector part (R169). -/
def Capture.entryBytes (c : Capture) : List Byte :=
  bytesOf 2 c.slot ++ [markByte c.held, markByte c.lock] ++
    if c.held then c.bytes else List.replicate 12 0

/-- The sector part of a SALVAGE (R169). -/
def Solver.sectorBytes (su : Solver) (serial : Nat) (r : SalvageSector) : List Byte :=
  [byteOf r.status.code, byteOf (su.place serial r.sector), markByte r.slot.isSome] ++
    optBytes 9 (r.best.map fun x => x.rating.bytes ++ timeBytes x.time) ++
    [byteOf r.caps.length] ++ r.caps.flatMap Capture.entryBytes

/-- The sector part of a RELAY, with the sector's source as it stands (R105, R169). -/
def RelaySector.bytes (r : RelaySector) (source : ImageSource) : List Byte :=
  [byteOf source.code] ++ optBytes 2 (r.image.map fun c => bytesOf 2 c.slot) ++ [markByte r.verified]

/-- A job in LIST_JOBS (R169). -/
def Job.listBytes (j : Job) : List Byte :=
  [byteOf j.id, byteOf j.kind.code, byteOf j.drive.val, byteOf j.state.code] ++ timeBytes j.filed

/-! ### Notices (R172, R173) -/

/-- The notice kind (section 11.9). -/
def NoticeBody.kind : NoticeBody → Byte
  | .start .. => 0x40
  | .storeReady .. => 0x41
  | .jobDone .. => 0x42
  | .sectorResult .. => 0x43
  | .suspectAdded .. | .suspectDropped .. | .suspectFiled .. => 0x44
  | .store .. => 0x46
  | .badFrame .. | .requestDropped .. | .lineBreak => 0x47
  | .ready .. | .offline .. | .speedDoubt .. | .speedGood .. | .indexLost .. | .indexBack .. | .slip ..
  | .seekFault .. | .holdLimit .. | .writeCheckMismatch .. | .liveMisplaced .. => 0x45

/-- The outcome codes of JOB_DONE (R172). -/
def Outcome.code : Outcome → Nat
  | .complete => 0 | .partialDone => 1 | .cancelled => 2 | .driveLost => 3 | .seekFailed => 4
  | .failedUnreadable | .failedVerify _ | .failedStore | .failedSeek => 5

/-- The FAILED reason and mask of an outcome (R172), each with a presence byte of its own (log entry 55). -/
def Outcome.reasonBytes : Outcome → List Byte
  | .failedUnreadable => optBytes 1 (some [0]) ++ optBytes 2 none
  | .failedVerify m => optBytes 1 (some [1]) ++ optBytes 2 (some (setBytes m))
  | .failedStore => optBytes 1 (some [2]) ++ optBytes 2 none
  | .failedSeek => optBytes 1 (some [3]) ++ optBytes 2 none
  | .complete | .partialDone | .cancelled | .driveLost | .seekFailed => optBytes 1 none ++ optBytes 2 none

/-- The codes of R152's effects. -/
def StoreEffect.code : StoreEffect → Nat
  | .entryDamaged _ => 0 | .bestDropped .. => 1 | .captureDiscarded .. => 2
  | .prepareDiscarded .. => 3 | .spoiled _ => 4 | .none => 5

/-- States of a keep entry in the order of R132 (R163). -/
def KeepEntry.stateOrder (e : KeepEntry) : Nat :=
  if e.damaged then 3
  else
    match e.kind with
    | .recovered _ => 0
    | .diverted => 1
    | .placed => 2

/-- The fields of R152's effects; an entry's state before is coded by R132's list (R163). -/
def StoreEffect.bytes : StoreEffect → List Byte
  | .entryDamaged e => e.addr.bytes ++ [byteOf e.stateOrder]
  | .bestDropped j k => [byteOf j, byteOf k]
  | .captureDiscarded j k => [byteOf j, byteOf k]
  | .prepareDiscarded j k => [byteOf j, byteOf k]
  | .spoiled op => [byteOf op]
  | .none => []

/-- The event code (R172, R173). -/
def NoticeBody.code : NoticeBody → Nat
  | .start restart .. => if restart then 1 else 0
  | .storeReady .. => 0
  | .jobDone _ o => o.code
  | .sectorResult _ _ _ o =>
    match o with
    | .resolved .. => 0 | .provisional .. => 1 | .ambiguous .. => 2 | .misplaced .. => 3
  | .suspectAdded .. => 0
  | .suspectDropped .. => 1
  | .suspectFiled .. => 2
  | .ready .. => 0 | .offline .. => 1 | .speedDoubt .. => 2 | .speedGood .. => 3 | .indexLost .. => 4
  | .indexBack .. => 5 | .slip .. => 6 | .seekFault .. => 7 | .holdLimit .. => 8
  | .writeCheckMismatch .. => 9 | .liveMisplaced .. => 10
  | .store _ e => e.code
  | .badFrame .. => 0 | .requestDropped .. => 1 | .lineBreak => 2

/-- The causes of R156. -/
def BadCause.code : BadCause → Nat
  | .length => 0 | .check => 1 | .framing => 2 | .gap => 3 | .kind => 4

/-- What a HOLD_LIMIT says was stopped (R173). -/
def Stopped.code : Stopped → Nat
  | .position => 0 | .pass => 1 | .write => 2 | .none => 3

/-- Keep actions in the order of R127. -/
def KeepAction.code : KeepAction → Nat
  | .created => 0 | .replaced => 1 | .keptExisting => 2

/-- The header fields read, with the reason (R127, R173). -/
def Header.bytes (h : Header) (reason : HeaderOutcome) : List Byte :=
  bytesOf 2 h.cyl ++ [byteOf h.head, byteOf h.sector] ++ bytesOf 2 h.volume ++ [byteOf reason.reason]

/-- The fields of R127: grade, flips, minimum confidence, captures used, new best, keep action, size and
count, header and reason; those the outcome does not give are zero (R172). -/
def SectorOutcome.bytes : SectorOutcome → List Byte
  | .resolved r action => r.bytes ++ [0, byteOf action.code] ++ List.replicate 9 0
  | .provisional r newBest => r.bytes ++ [markByte newBest, 0] ++ List.replicate 9 0
  | .ambiguous used size count =>
    [0, 0, 0, byteOf used, 0, 0, byteOf size, byteOf count] ++ List.replicate 7 0
  | .misplaced used h reason => [0, 0, 0, byteOf used, 0, 0, 0, 0] ++ h.bytes reason

/-- The sectors of a SALVAGE whose status satisfies a test. -/
def Job.statusSet (j : Job) (p : SectorStatus → Bool) : SectorSet :=
  sectorSet ((j.sectors.filter fun r => p r.status).map (·.sector))

/-- The fields of a JOB_DONE notice (R112, R172). A RELAY or a SURVEY sends four empty sets (log entry 82). -/
def Job.doneBytes (j : Job) (o : Outcome) : List Byte :=
  [byteOf j.id, byteOf j.kind.code] ++
    (if j.kind = .survey then bytesOf 2 j.cyl.val ++ bytesOf 2 j.endCyl.val ++ bytesOf 2 j.tracksFound
    else j.track.bytes) ++
    o.reasonBytes ++ setBytes (j.statusSet (· = .resolved)) ++ setBytes (j.statusSet (· = .superseded)) ++
    setBytes (j.statusSet (· = .provisional)) ++ setBytes (j.statusSet (·.unresolved)) ++
    bytesOf 2 j.total ++ bytesOf 2 j.abandoned ++ [byteOf j.seekFails] ++ timeBytes j.filed

/-- The fields after the header (R172, R173). The kind and the tag of a BAD_FRAME have a presence byte each (log
entry 55). -/
def NoticeBody.fields : NoticeBody → List Byte
  | .start _ retention epoch entries init =>
    optBytes 1 (retention.map fun r => [markByte r]) ++ bytesOf 4 epoch ++ bytesOf 2 entries ++
      [markByte init]
  | .storeReady epoch entries => bytesOf 4 epoch ++ bytesOf 2 entries
  | .jobDone j o => j.doneBytes o
  | .sectorResult id t k o => [byteOf id] ++ t.bytes ++ [byteOf k] ++ o.bytes
  | .suspectAdded x => x.track.bytes ++ setBytes x.mask ++ [byteOf x.source.code, byteOf x.count]
  | .suspectDropped t mask src => t.bytes ++ setBytes mask ++ [byteOf src.code]
  | .suspectFiled x id => x.track.bytes ++ setBytes x.mask ++ [byteOf x.source.code, byteOf id]
  | .ready away => optBytes 4 (away.map (satBytes 4))
  | .offline left served => [byteOf left.code] ++ optBytes 1 (served.map fun j => [byteOf j])
  | .speedDoubt lost average => [markByte lost] ++ optBytes 4 (average.map (bytesOf 4))
  | .speedGood average => bytesOf 4 average
  | .indexLost last rev => timeBytes last ++ bytesOf 4 rev
  | .indexBack since rev => satBytes 4 since ++ bytesOf 4 rev
  | .slip header before after suppressed rev slips =>
    [markByte header, byteOf before, byteOf after] ++ optBytes 1 (suppressed.map fun s => [markByte s]) ++
      bytesOf 4 rev ++ bytesOf 2 slips
  | .seekFault cyl head => bytesOf 2 cyl.val ++ [byteOf head.val]
  | .holdLimit served what since =>
    optBytes 1 (served.map fun j => [byteOf j]) ++ [byteOf what.code] ++ timeBytes since
  | .writeCheckMismatch a ctrl recomputed =>
    a.bytes ++ bytesOf 2 ctrl.toNat ++ bytesOf 2 recomputed.toNat
  | .liveMisplaced a h reason => a.bytes ++ h.bytes reason
  | .store e effect => e.bytes ++ effect.bytes
  | .badFrame cause kind tag length =>
    [byteOf cause.code] ++ optBytes 1 (kind.map fun b => [b]) ++ optBytes 1 (tag.map fun b => [b]) ++
      optBytes 2 (length.map (bytesOf 2))
  | .requestDropped kind tag => [kind, tag]
  | .lineBreak => []

/-- The payload of a notice: its 8-byte header and its fields (R160, R172). -/
def Notice.payload (n : Notice) : List Byte :=
  [byteOf n.lost, byteOf n.note.body.code, driveByte n.note.drive] ++ timeBytes n.note.time ++
    n.note.body.fields

/-- The payload of a reply (R164). -/
def Reply.payload (r : Reply) : List Byte :=
  [byteOf r.answer.status.code, markByte r.answer.adjusted] ++ r.answer.fields

/-- A frame of a kind, tag and payload (R154). -/
def frameBytes (kind tag : Byte) (payload : List Byte) : List Byte :=
  let body := bytesOf 2 payload.length ++ [kind, tag] ++ payload
  [0xC3] ++ body ++ bytesOf 2 (body.foldl rotByte 0).toNat

/-- The bytes of a frame on the transmit line (R154, R159). -/
def TxFrame.bytes : TxFrame → List Byte
  | .reply r => frameBytes r.kind r.tag r.payload
  | .notice n => frameBytes n.note.body.kind 0 n.payload

end Sys2Proof.Machine
end

