-- ==== Sys2Proof/Machine/Operands.lean ====
section
/-! DEFINITION. How a request's kind and payload are read: the table of kinds and lengths (section 11.9) and the
codings of the fields (R163, R165). -/

namespace Sys2Proof.Machine

/-- Byte i of a payload as a number. -/
def u8 (p : List Byte) (i : Nat) : Nat := (p.getD i 0).toNat

/-- Bytes i and i + 1 of a payload as a number, high byte first (R163). -/
def u16 (p : List Byte) (i : Nat) : Nat := u8 p i * 256 + u8 p (i + 1)

/-- The payload length of a request kind, or none where the kind names no request (section 11.9). -/
def requestLength (kind : Byte) (p : List Byte) : Option Nat :=
  match kind.toNat with
  | 0x01 => some 0 | 0x02 => some 0 | 0x03 => some 1 | 0x04 => some 9 | 0x05 => some 2
  | 0x06 => some 1 | 0x07 => some 12 | 0x08 => some (1 + 4 * u8 p 0) | 0x09 => some 0
  | 0x0A => some 12 | 0x0B => some 1 | 0x0C => some 2 | 0x0D => some 0 | 0x0E => some 1
  | 0x0F => some 4 | 0x10 => some 5 | 0x11 => some 5 | 0x12 => some 3 | 0x13 => some 261
  | 0x14 => some 8 | 0x15 => some 6 | 0x16 => some 0 | 0x17 => some 0 | 0x18 => some 2
  | 0x19 => some 0
  | _ => none

/-- Whether a payload's length fits its kind (R165). -/
def lengthFits (kind : Byte) (p : List Byte) : Bool := requestLength kind p = some p.length

/-- Whether a kind is a request's (R155). -/
def isRequestKind (kind : Byte) : Bool := 1 ≤ kind.toNat && kind.toNat ≤ 0x3F

/-- A drive (R165). -/
def readDrive (p : List Byte) (i : Nat) : Option DriveNo :=
  if u8 p i ≤ 3 then some (Fin.ofNat 4 (u8 p i)) else none

/-- A sector address of 5 bytes (R163, R165). -/
def readAddr (p : List Byte) (i : Nat) : Option Addr :=
  if u8 p i ≤ 3 ∧ u16 p (i + 1) ≤ 511 ∧ u8 p (i + 3) ≤ 3 ∧ u8 p (i + 4) ≤ 15 then
    some { drive := Fin.ofNat 4 (u8 p i), cyl := Fin.ofNat 512 (u16 p (i + 1)),
           head := Fin.ofNat 4 (u8 p (i + 3)), sector := Fin.ofNat 16 (u8 p (i + 4)) }
  else none

/-- A track of 4 bytes (R163, R165). -/
def readTrack (p : List Byte) (i : Nat) : Option Track :=
  if u8 p i ≤ 3 ∧ u16 p (i + 1) ≤ 511 ∧ u8 p (i + 3) ≤ 3 then
    some { drive := Fin.ofNat 4 (u8 p i), cyl := Fin.ofNat 512 (u16 p (i + 1)),
           head := Fin.ofNat 4 (u8 p (i + 3)) }
  else none

/-- A mark or option (R163, R165). -/
def readMark (n : Nat) : Option Bool := if n = 0 then some false else if n = 1 then some true else none

/-- A grade (R163, R165). -/
def readGrade (n : Nat) : Option Grade :=
  match n with
  | 0 => some .a
  | 1 => some .b
  | 2 => some .c
  | _ => none

/-- An offset (R163, R165). -/
def readOffset (n : Nat) : Option Offset :=
  match n with
  | 0 => some .zero
  | 1 => some .inward
  | 2 => some .outward
  | _ => none

/-- A share mode (R72, R167). -/
def readMode (n : Nat) : Option ShareMode :=
  match n with
  | 0 => some .liveFirst
  | 1 => some .salvageFirst
  | 2 => some .salvageOnly
  | 3 => some .liveOnly
  | _ => none

/-- The words of n pairs of bytes from byte i. -/
def readWordList (p : List Byte) : Nat → Nat → List Word
  | 0, _ => []
  | n + 1, i => BitVec.ofNat 16 (u16 p i) :: readWordList p n (i + 2)

/-- A number brought between two limits. -/
def clampTo (low high n : Nat) : Nat := if n < low then low else if high < n then high else n

/-! ### SET_PROFILE (R10, R167) -/

/-- The profile a SET_PROFILE asks for, none where R10 refuses it RANGE, with the adjusted mark. -/
def readProfile (p : List Byte) : Option (Profile × Bool) :=
  let cyls := u16 p 1
  let heads := u8 p 3
  let sectors := u8 p 4
  let vol := u16 p 5
  let period := u16 p 7
  let recorded := clampTo 15000 40000 period
  if 1 ≤ cyls ∧ cyls ≤ 512 ∧ 1 ≤ heads ∧ heads ≤ 4 ∧ 8 ≤ sectors ∧ sectors ≤ 16 ∧
      (vol ≤ 4095 ∨ vol = 0xFFFF) then
    some ({ cylinders := cyls, heads := heads, sectors := sectors,
            volume := if vol = 0xFFFF then none else some (BitVec.ofNat 12 vol), period := recorded },
          recorded ≠ period)
  else none

/-! ### SET_SHARE (R72, R167) -/

/-- The settings of a SET_SHARE. -/
structure ShareReq where
  mode : ShareMode
  sub : Bool
  grade : Grade
  divert : Bool
  auto : Bool
  hold : Nat
  grace : Nat
  starve : Nat
  deriving DecidableEq, Repr

/-- The settings a SET_SHARE carries, clamped, with the adjusted mark; none where a field is RANGE. -/
def readShare (p : List Byte) : Option (ShareReq × Bool) :=
  let hold := clampTo 30 250 (u16 p 6)
  let grace := clampTo 5 500 (u16 p 8)
  let starve := clampTo 100 60000 (u16 p 10)
  match readMode (u8 p 1), readMark (u8 p 2), readGrade (u8 p 3), readMark (u8 p 4), readMark (u8 p 5) with
  | some mode, some sub, some grade, some divert, some auto =>
    some ({ mode := mode, sub := sub, grade := grade, divert := divert, auto := auto, hold := hold,
            grace := grace, starve := starve },
          hold ≠ u16 p 6 || grace ≠ u16 p 8 || starve ≠ u16 p 10)
  | _, _, _, _, _ => none

/-! ### SET_LADDER (R94, R168) -/

/-- A shift brought into -4..+4 (R168). -/
def clampShift (s : Int) : Int := if s < -4 then -4 else if 4 < s then 4 else s

/-- n steps of 4 bytes from byte i, with the adjusted mark; none where a field is RANGE (R168). -/
def readSteps (p : List Byte) : Nat → Nat → Option (List LadderStep × Bool)
  | 0, _ => some ([], false)
  | n + 1, i =>
    let asked := (p.getD i 0).toInt
    let shift := clampShift asked
    let passes := clampTo 1 4 (u8 p (i + 3))
    match readOffset (u8 p (i + 1)), readMark (u8 p (i + 2)), readSteps p n (i + 4) with
    | some off, some recal, some (rest, adj) =>
      some ({ shift := shift, offset := off, recal := recal, passes := passes } :: rest,
            adj || shift ≠ asked || passes ≠ u8 p (i + 3))
    | _, _, _ => none

/-- The ladder of a SET_LADDER (R94, R168). -/
def readLadder (p : List Byte) : Option (List LadderStep × Bool) :=
  if 1 ≤ u8 p 0 ∧ u8 p 0 ≤ 16 then readSteps p (u8 p 0) 1 else none

/-! ### FILE_JOB (R91, R169) -/

/-- The filing a FILE_JOB carries, with the adjusted mark; none where a field its kind reads is RANGE by its
coding. Fields the kind does not read take their defaults (R169). -/
def readFile (p : List Byte) : Option (FileReq × Bool) :=
  match u8 p 0 with
  | 0 =>
    match readTrack p 1, readGrade (u8 p 9) with
    | some t, some g =>
      let n := clampTo 1 4 (u8 p 10)
      some ({ kind := .salvage, drive := t.drive, cyl := t.cyl, head := t.head, endCyl := 0,
              target := BitVec.ofNat 16 (u16 p 7), accept := g, repeats := n, retain := false },
            n ≠ u8 p 10)
    | _, _ => none
  | 1 =>
    match readTrack p 1, readMark (u8 p 11) with
    | some t, some r =>
      some ({ kind := .relay, drive := t.drive, cyl := t.cyl, head := t.head, endCyl := 0, target := 0,
              accept := .b, repeats := 1, retain := r }, false)
    | _, _ => none
  | 2 =>
    match readDrive p 1 with
    | some d =>
      if u16 p 2 ≤ 511 ∧ u16 p 5 ≤ 511 then
        some ({ kind := .survey, drive := d, cyl := Fin.ofNat 512 (u16 p 2), head := 0,
                endCyl := Fin.ofNat 512 (u16 p 5), target := 0, accept := .b, repeats := 1,
                retain := false }, false)
      else none
    | none => none
  | _ => none

/-- A FILE_JOB handled: the checks of R91 and R165 in their order, then the job placed and answered, and the
filings that finish at once (R92). -/
def Board.fileNow (b : Board) (p : List Byte) : Board :=
  if u8 p 0 ≤ 1 ∧ b.ts.init.isSome then b.deny .notReady
  else
    match readFile p with
    | none => b.deny .range
    | some (r, adjusted) =>
      match b.fileCheck r with
      | some st => b.deny st
      | none =>
        let (b1, j) := b.placeJob r
        (b1.reply .ok adjusted [byteOf j.id, byteOf j.repeats]).finishAtOnce j

/-- A FILE_JOB that waited for a write gate, handled now that no gate is up on its track; and the
examination for an auto-salvage filing that waited (R35, R91). -/
def Board.afterGate (b : Board) (d : DriveNo) : Board :=
  let b1 :=
    match b.filing with
    | some p =>
      match readFile p with
      | some (r, _) =>
        if b.gateOnTrack r.track then b else ({ b with filing := none } : Board).fileNow p
      | none => b
    | none => b
  if (b1.drv d).lp.autoWait then { b1.modLp d fun lp => { lp with autoWait := false } with exam := true }
  else b1

/-! ### SET_SCRUB (R148) -/

/-- The scrub interval recorded for one asked (R148). -/
def scrubInterval (n : Nat) : Nat :=
  if n = 0 then 0
  else if n < 32 then 16
  else if n < 64 then 32
  else if n < 128 then 64
  else if n < 256 then 128
  else if n < 512 then 256
  else if n < 1024 then 512
  else 1024

end Sys2Proof.Machine
end

