-- ==== Sys2Proof/Machine/Solve.lean ====
section
/-! DEFINITION. The solve unit: starting a solve, its snapshot, its end and delivery (R115, R120..R127), and the
commands SOLVE_START, SNAPSHOT_READ_COMPLETE and DELIVERY_WRITE_COMPLETE as changes of the board. -/

namespace Sys2Proof.Machine

/-- A member put in its place by capture time, the earliest first; ages are measured back from now (R115). -/
def Board.insertMember (b : Board) (m : Member) : List Member → List Member
  | [] => [m]
  | x :: xs => if b.since x.time < b.since m.time then m :: x :: xs else x :: b.insertMember m xs

/-- The snapshot members of a sector's held captures, none read yet (R115). -/
def Board.membersOf (b : Board) (caps : List Capture) : List Member :=
  (caps.filter (·.held)).foldl (fun ms c =>
    b.insertMember { slot := c.slot, time := c.time, tag := c.tag, passNo := c.passNo, data := none } ms) []

/-- The pass a MISPLACED solve is attributed to: that of the latest engine capture of the snapshot (R120). -/
def attributed (ms : List Member) : Option Nat :=
  ms.foldl (fun acc m => match m.tag with
    | .step _ => some m.passNo
    | _ => acc) none

/-- The misplaced tally after a MISPLACED solve attributed to a pass, and the recalibrate mark (R120). -/
def Job.misplaced (j : Job) : Option Nat → Job
  | none => j
  | some p =>
    match j.tally with
    | none => { j with tally := some (p, 1) }
    | some (q, c) =>
      if q < p then { j with tally := some (p, 1) }
      else if q = p then { j with tally := some (p, c + 1), recal := j.recal || c = 1 }
      else j

/-- The delivery of an outcome to its job and to the keep directory, with its notice (R124 step 3, R125..R127).
written says that the result's image has been written into the reserved slot. -/
def Board.deliver (b : Board) (f : Flight) (j : Job) (r : SalvageSector) (o : SolveEnd)
    (written : Bool) : Board :=
  let used := f.snapshot.length
  let status (b : Board) (st : SectorStatus) : Board :=
    b.modJob j.serial fun j => j.modSector r.sector fun r => { r with status := st }
  let tell (b : Board) (x : SectorOutcome) : Board :=
    b.note (some j.drive) (.sectorResult j.id j.track r.sector x)
  match o with
  | .noCaptures => b
  | .unmatched => b
  | .ambiguous m n => tell (status b .ambiguous) (.ambiguous used m n)
  | .misplaced h reason =>
    tell ((status b .misplaced).modJob j.serial fun j => j.misplaced (attributed f.snapshot))
      (.misplaced used h reason)
  | .graded x =>
    if x.rating.grade.meets j.accept then
      match r.slot with
      | some slot =>
        let (b1, action) := b.enterResult (j.track.addr r.sector) slot x.rating b.now true
        tell (b1.modJob j.serial fun j => j.modSector r.sector fun r =>
            { r with status := .resolved, best := some { rating := x.rating, time := b.now },
                     slot := none })
          (.resolved x.rating action)
      | none => b
    else if written then
      tell (b.modJob j.serial fun j => j.modSector r.sector fun r =>
          { r with status := .provisional, best := some { rating := x.rating, time := b.now } })
        (.provisional x.rating true)
    else tell (status b .provisional) (.provisional x.rating false)

/-- The end of a solve: locks cleared, nothing in flight, the pair requeued under its mark, and the job's
finish where R93 gives one (R124 steps 4 to 6); the next solve starts at the end of the step (Board.nextSolve). -/
def Board.closeSolve (b : Board) (f : Flight) : Board :=
  let b1 := b.endSolve
  let again := f.requeue &&
    ((b1.job f.job).bind (·.sectorRec f.sector)).any (·.status.unresolved)
  let b2 := if again then b1.joinQueue f.job f.sector else b1
  (b2.completeCheck f.job).settleCheck f.job

/-- A solve whose outcome writes nothing ends (R124). -/
def Board.endWith (b : Board) (f : Flight) (o : SolveEnd) : Board :=
  match b.job f.job with
  | some j =>
    match j.sectorRec f.sector with
    | some r => (b.deliver f j r o false).closeSolve f
    | none => b.closeSolve f
  | none => b.closeSolve f

/-- Whether a graded result is written into the reserved slot (R124 step 2). -/
def SalvageSector.takes (r : SalvageSector) (accept : Grade) (x : Rating) : Bool :=
  x.grade.meets accept ||
    match r.best with
    | none => true
    | some y => x.cmp y.rating ≠ .lt

/-- A solve whose snapshot is complete goes on to the vote, the search, the header test and its end or its
delivery write; one whose snapshot is not complete waits (R115..R124). -/
def Board.snapshotCheck (b : Board) : Board :=
  match b.su.flight with
  | none => b
  | some f =>
    match f.phase with
    | .delivering _ => b
    | .reading =>
      if f.snapshot.any (·.data.isNone) then b
      else
        match b.job f.job with
        | none => b.closeSolve f
        | some j =>
          match j.sectorRec f.sector with
          | none => b.closeSolve f
          | some r =>
            let o := solveSnapshot (b.drv j.drive).profile j.cyl.val j.head.val f.sector f.k f.threshold
              (f.snapshot.filterMap (·.data))
            match o, r.slot with
            | .graded x, some slot =>
              if r.takes j.accept x.rating then
                ({ b with su := { b.su with flight := some { f with phase := .delivering x } } } : Board).request
                  .delivery slot (slotWrites slot x.image x.confs)
              else b.endWith f o
            | _, _ => b.endWith f o

/-- A solve started from the head of the queue (R115). -/
def Board.solveStart (b : Board) : Board :=
  match b.su.flight, b.su.queue with
  | none, (serial, k) :: rest =>
    let b0 : Board := { b with su := { b.su with queue := rest } }
    match (b.job serial).bind (·.sectorRec k) with
    | none => b0
    | some r =>
      let ms := b.membersOf r.caps
      let f : Flight :=
        { job := serial, sector := k, k := b.su.k, threshold := b.su.threshold, phase := .reading,
          snapshot := ms, requeue := false, discard := false, superseded := false }
      let b1 := ({ b0 with su := { b0.su with flight := some f } } : Board).modJob serial fun j =>
        j.modSector k fun r => { r with caps := r.caps.map fun c => { c with lock := c.held || c.lock } }
      let b2 := ms.foldl (fun b m => b.request .solveRead m.slot (slotReads m.slot Config.slotCells)) b1
      b2.snapshotCheck
  | _, _ => b

/-- Solves started one after another while each ends at once (R115, R124). -/
def Board.nextSolveFor (b : Board) : Nat → Board
  | 0 => { b with solveOver := false }
  | fuel + 1 =>
    if b.solveOver then Board.nextSolveFor ({ b with solveOver := false } : Board).solveStart fuel else b

/-- The next solve, where one has ended in this step and the queue is not empty (R124 step 6). It starts at the
step's end (log entry 39). Each start takes a pair off the queue, and a solve that ends at once sets no requeue mark,
so the queue's length bounds the starts. -/
def Board.nextSolve (b : Board) : Board := b.nextSolveFor (b.su.queue.length + 2)

/-- A locked capture that has left its set before it was read leaves the snapshot too (R115); what remains of a read
half made is withdrawn (log entry 72). -/
def Board.leaveSnapshot (b : Board) (slot : Nat) : Board :=
  match b.su.flight with
  | some f =>
    match f.phase with
    | .reading =>
      if f.snapshot.any fun m => m.slot = slot && m.data.isNone then
        let f1 := { f with snapshot := f.snapshot.filter fun m => !(m.slot = slot && m.data.isNone) }
        (({ b with su := { b.su with flight := some f1 } } : Board).dropOps fun op =>
          op.kind = .solveRead && op.slot = slot).snapshotCheck
      else b
    | .delivering _ => b
  | none => b

/-- A snapshot read that has completed (R115). A quality that wrong bits make read above 7 enters the vote as it reads
(R116, R129; log entry 74). -/
def Board.snapshotRead (b : Board) (slot : Nat) : Board :=
  match b.su.flight, b.ts.ops.find? fun op => op.kind = .solveRead && op.slot = slot && op.todo.isEmpty with
  | some f, some op =>
    let words := unpackWords (op.got.take Config.imageCells)
    let quals := unpackValues (op.got.drop Config.imageCells)
    let f1 := { f with snapshot := f.snapshot.map fun m =>
      if m.slot = slot then { m with data := some (words, quals) } else m }
    (({ b with su := { b.su with flight := some f1 } } : Board).dropOps fun op =>
      op.kind = .solveRead && op.slot = slot).snapshotCheck
  | _, _ => b

end Sys2Proof.Machine
end

