-- ==== Sys2Proof/Machine/Link.lean ====
section
/-! DEFINITION. The service link: the framer, the request queue, replies, notices and the transmitter (chapter
10), and settle, which ends every step. -/

namespace Sys2Proof.Machine

/-! ### Notices and the transmitter (R159, R160) -/

/-- A notice queued, or lost to a full queue and counted (R160). -/
def Link.joinNotice (l : Link) (n : Note) : Link :=
  if l.notices.length < 32 then
    { l with notices := l.notices ++ [{ lost := l.lost, note := n }], lost := 0 }
  else { l with lost := min 255 (l.lost + 1) }

/-- The transmitter, IDLE, begins the oldest reply, else the oldest notice (R159). While the RESTART reset is
due nothing begins: the transmitter is IDLE at the reset (R162). -/
def Link.nextFrame (l : Link) : Link :=
  match l.tx, l.restart with
  | some _, _ => l
  | none, .due => l
  | none, _ =>
    match l.replies, l.notices with
    | r :: rs, _ => { l with tx := some (.reply r), replies := rs }
    | [], n :: ns => { l with tx := some (.notice n), notices := ns }
    | [], [] => l

/-- The end of the handling of the request in hand: its reply joins the reply list, or, dropped by a LINE
BREAK, the request leaves the queue (R158, R161). -/
def Link.endHandling (l : Link) (a : Answer) : Link :=
  match l.queue with
  | [] => l
  | r :: rest =>
    if l.dropReply then { l with queue := rest, hand := .fresh, dropReply := false }
    else
      { l with replies := l.replies ++ [{ kind := r.kind + 0x80, tag := r.tag, answer := a }],
               hand := .replied }

/-- What a step leaves of a board and link: where a solve has ended the next one starts, the examination asked for
is made, the answer given becomes the reply, the notices raised are queued, and an IDLE transmitter begins its next
frame (R103, R124, R158..R160). All the notices of the step are queued, or lost, before it begins one (log entry
81). -/
def settle (s : State) (b : Board) (l : Link) (m : Dram) : State :=
  let b := b.nextSolve.examine
  let l := match b.answer with
    | some a => l.endHandling a
    | none => l
  let l := (b.out.foldl Link.joinNotice l).nextFrame
  { board := { b with out := [], answer := none, exam := false, solveOver := false }, link := l, dram := m,
    pending := s.pending }

/-- A step that changes the board alone. -/
def onBoard (s : State) (f : Board → Board) : Host.Outcome State Fault Refusal :=
  .next (settle s (f s.board) s.link s.dram)

/-- A step that changes the board and the link. -/
def onLink (s : State) (f : Board → Link → Board × Link) : Host.Outcome State Fault Refusal :=
  let (b, l) := f s.board s.link
  .next (settle s b l s.dram)

/-! ### The request in hand (R158, R164, R165) -/

/-- The request that its row may now handle: in hand and not yet handled, with no RESTART under way (R158,
R162). -/
def Link.inHand (l : Link) : Option Request :=
  match l.queue, l.hand, l.restart with
  | r :: _, .fresh, .none => some r
  | _, _, _ => none

/-- A request whose kind names the row, handled: BAD_REQUEST where its length is wrong, else by the owner's
rule. Where the owner gives no answer yet, the request stays in hand (R158, R164). -/
def handleRequest (s : State) (kind : Byte) (f : Board → List Byte → Board) :
    Host.Outcome State Fault Refusal :=
  onLink s fun b l =>
    match l.inHand with
    | some r =>
      if r.kind = kind then
        let b1 := if lengthFits kind r.payload then f b r.payload else b.deny .badRequest
        (b1, if b1.answer.isNone then { l with hand := .handling } else l)
      else (b, l)
    | none => (b, l)

/-! ### The framer (R155, R156) -/

/-- A frame discarded: the framer is back in HUNT and a BAD_FRAME notice is raised (R156). -/
def discardFrame (b : Board) (l : Link) (cause : BadCause) : Board × Link :=
  (b.note none (.badFrame cause l.framer.kind l.framer.tag l.framer.length),
    { l with framer := .hunting })

/-- A byte taken outside HUNT: the last byte time is now, and a summed byte enters the running check (R155). -/
def Framer.take (f : Framer) (now : Time) (summed : Option Byte) : Framer :=
  { f with lastByte := some now,
           check := match summed with
             | some b => rotByte f.check b
             | none => f.check }

/-- A good request frame: it joins the request queue, or is answered BUSY, or is dropped (R157). -/
def offerRequest (b : Board) (l : Link) (r : Request) : Board × Link :=
  if l.queue.length < 4 then (b, { l with queue := l.queue ++ [r] })
  else if l.replies.countP (·.answer.status = .busy) < 4 then
    (b, { l with replies := l.replies ++
            [{ kind := r.kind + 0x80, tag := r.tag,
               answer := { status := .busy, adjusted := false, fields := [] } }] })
  else (b.note none (.requestDropped r.kind r.tag), l)

/-- The end of a frame at its second check byte (R155): discarded with cause CHECK or KIND, or taken as a
request. -/
def endFrame (b : Board) (l : Link) (sent : Word) : Board × Link :=
  let f := l.framer
  if sent ≠ f.check then discardFrame b l .check
  else
    match f.kind, f.tag with
    | some k, some t =>
      if isRequestKind k then
        offerRequest b { l with framer := .hunting } { kind := k, tag := t, payload := f.payload }
      else discardFrame b l .kind
    | _, _ => discardFrame b l .kind

/-- A byte taken by the framer in its phase (R155). -/
def takeByte (b : Board) (l : Link) (x : Byte) : Board × Link :=
  let f := l.framer
  let keep (f : Framer) : Board × Link := (b, { l with framer := f })
  match f.phase with
  | .broken => (b, l)
  | .hunt =>
    if x = 0xC3 then keep { Framer.hunting with phase := .length, lastByte := some b.now } else (b, l)
  | .length =>
    match f.lenHigh with
    | none => keep { f.take b.now (some x) with lenHigh := some x }
    | some h =>
      let n := h.toNat * 256 + x.toNat
      let f1 := { f.take b.now (some x) with length := some n }
      if 512 < n then discardFrame b { l with framer := f1 } .length else keep { f1 with phase := .kind }
  | .kind => keep { f.take b.now (some x) with kind := some x, phase := .tag }
  | .tag =>
    keep { f.take b.now (some x) with
      tag := some x, phase := if f.length.getD 0 = 0 then .check else .payload }
  | .payload =>
    let got := f.payload ++ [x]
    keep { f.take b.now (some x) with
      payload := got, phase := if f.length.getD 0 ≤ got.length then .check else .payload }
  | .check =>
    match f.checkHigh with
    | none => keep { f.take b.now none with checkHigh := some x }
    | some h => endFrame b l (h ++ x)

end Sys2Proof.Machine
end

