-- ==== Sys2Proof/Machine/ArbiterEvents.lean ====
section
/-! DEFINITION. The arbiter's own events: takes, the idle grace, the starve limit and the hold limit (R74, R76,
R83). -/

namespace Sys2Proof.Machine

/-- A take made now, or TAKING entered (R76). -/
def Board.takeOrWait (b : Board) (d : DriveNo) : Board := (b.tryTake d).enterTaking d

/-- The idle grace run out in LIVE_IDLE (R76). -/
def Board.graceExpiry (b : Board) (d : DriveNo) : Board :=
  let da := (b.drv d).da
  match da.owner, da.idleStart with
  | .liveIdle, some t => if da.share.grace * 1000 ≤ b.since t then b.tryTake d else b
  | _, _ => b

/-- Whether a WAITING job's wait exceeds its drive's starve limit (R74). -/
def Board.starved (b : Board) (j : Job) : Bool :=
  j.state = .waiting && j.level = .patient && (b.drv j.drive).da.share.starve * 1000 < b.since j.since

/-- A job's take level raised to PRESSING (R74). -/
def Board.press (b : Board) (serial : Nat) : Board := b.modJob serial fun j => { j with level := .pressing }

/-- The starve limit of a WAITING job exceeded (R74, R76). -/
def Board.starveExpiry (b : Board) (id : Nat) : Board :=
  match b.jobById id with
  | some j => if b.starved j then (b.press j.serial).takeOrWait j.drive else b
  | none => b

/-- Whether a held command's wait has reached the hold limit for the first time (R83). -/
def Board.holdDue (b : Board) (d : DriveNo) : Bool :=
  let da := (b.drv d).da
  da.held && !da.limitHit && match da.holdStart with
    | some t => da.share.hold * 1000 ≤ b.since t
    | none => false

/-- The HOLD_LIMIT notice (R83). -/
def Board.noteHold (b : Board) (d : DriveNo) (what : Stopped) : Board :=
  let da := (b.drv d).da
  let served := if da.owner = .engineRestore then none else da.served.map (·.id)
  (b.note (some d) (.holdLimit served what (da.holdStart.getD b.now))).modDa d fun da =>
    { da with limitHit := true }

/-- The hold limit reached (R83). It does not act while a live command is awaited. HOLD_LIMIT is queued before the
notices its stop raises (log entry 51). -/
def Board.holdExpiry (b : Board) (d : DriveNo) : Board :=
  if b.holdDue d then
    let da := (b.drv d).da
    match da.owner with
    | .enginePosition => (b.noteHold d .position).modDa d fun da => { da with preempted := true }
    | .enginePass =>
      match da.passKind with
      | some .write =>
        let b1 := b.noteHold d .write
        if da.writing.isSome then b1.modDa d fun da => { da with stopAtEnd := true } else b1.passStop d
      | some .read | none => ((b.noteHold d .pass).stopChannel d).passStop d
    | .engineRestore => b.noteHold d .none
    | .liveIdle | .liveBusy | .taking | .offline => b
  else b

/-- TAKE (R76). -/
def execTake (d : DriveNo) (s : State) : Host.Outcome State Fault Refusal :=
  onBoard s fun b => b.takeOrWait d

/-- IDLE_GRACE_EXPIRY (R76). -/
def execIdleGraceExpiry (d : DriveNo) (s : State) : Host.Outcome State Fault Refusal :=
  onBoard s fun b => b.graceExpiry d

/-- STARVE_LIMIT_EXPIRY (R74, R76). -/
def execStarveLimitExpiry (job : Byte) (s : State) : Host.Outcome State Fault Refusal :=
  onBoard s fun b => b.starveExpiry job.toNat

/-- HOLD_LIMIT_EXPIRY (R83). -/
def execHoldLimitExpiry (d : DriveNo) (s : State) : Host.Outcome State Fault Refusal :=
  onBoard s fun b => b.holdExpiry d

end Sys2Proof.Machine
end

