-- ==== Sys2Proof/Machine/ChannelEvents.lean ====
section
/-! DEFINITION. What the read channel does as a slot's cells pass: the sync found or not, the header words, the
whole image, and the header resync (R50, R58..R60). The frames are those the drive gives (log entry 5). -/

namespace Sys2Proof.Machine

/-- A sync cell found at the last of the frames (R58). -/
def Channel.syncFound (rc : Channel) (frames : List CellFrame) : Channel :=
  if rc.activity = .hunting ∧ rc.cells + frames.length ≤ 400 ∧
      syncCell rc.slotShift rc.run rc.cells frames = some (rc.cells + frames.length) then
    { rc with activity := .reading, run := 24, cells := rc.cells + frames.length, wordIndex := 0,
              check := 0, lastFrame := frames.getLastD rc.lastFrame }
  else rc

/-- Cell 400 passed without a sync cell (R58). -/
def Channel.huntLimit (rc : Channel) (frames : List CellFrame) : Channel :=
  if rc.activity = .hunting ∧ rc.cells + frames.length = 400 ∧
      syncCell rc.slotShift rc.run rc.cells frames = none then
    { rc with activity := .complete, found := false, cells := 400,
              run := runAfter rc.slotShift rc.run frames, lastFrame := frames.getLastD rc.lastFrame }
  else rc

/-- The cylinder and head a set-up expects (R61, R62). -/
def Setup.expects : Setup → Option (Nat × Nat)
  | .none => Option.none
  | .live x => some (x.cyl, x.head)
  | .pass x => some (x.cyl, x.head)

/-- Words taken with their qualities into the buffer receiving the slot (R59, R64). -/
def Channel.receive (rc : Channel) (ws : List (Word × Nat)) : Channel :=
  match rc.slotBuf with
  | none => rc
  | some i =>
    let x := rc.buf i
    rc.setBuf i { x with words := x.words ++ ws.map (·.1), quals := x.quals ++ ws.map (·.2) }

/-- Words 0 and 1 read, and the header test made under the profile now in force (R59). -/
def Channel.headerRead (rc : Channel) (p : Profile) (frames : List CellFrame) : Channel :=
  match rc.setup.expects with
  | none => rc
  | some (cyl, head) =>
    if rc.activity = .reading ∧ rc.wordIndex = 0 ∧ frames.length = 32 then
      let ws := readWords rc.slotShift 2 rc.lastFrame frames
      let w0 := (ws.map (·.1)).getD 0 0
      let w1 := (ws.map (·.1)).getD 1 0
      let h := readHeader w0 w1
      { rc.receive ws with
        check := rotSum [w0, w1], wordIndex := 2, lastFrame := frames.getLastD rc.lastFrame,
        header := some (headerTest p cyl head rc.slotNo h, h) }
    else rc

/-- Words 2 to 130 read: the image is complete, with its soundness and capture time (R59, R60). -/
def Channel.imageRead (rc : Channel) (now : Time) (frames : List CellFrame) : Channel :=
  if rc.activity = .reading ∧ rc.wordIndex = 2 ∧ frames.length = 2064 then
    let ws := readWords rc.slotShift 129 rc.lastFrame frames
    let words := ws.map (·.1)
    let sum := (words.take 128).foldl rotAdd rc.check
    { rc.receive ws with
      check := sum, wordIndex := 130, lastFrame := frames.getLastD rc.lastFrame, activity := .complete,
      found := true, sound := sum = words.getD 128 0, capTime := now }
  else rc

/-- The header resync a completed image hands to the tracker, if any (R50). -/
def Channel.resync (rc : Channel) (p : Profile) : Option Nat :=
  match rc.setup.expects, rc.header with
  | some (cyl, head), some (_, h) =>
    if rc.sound && h.cyl = cyl && h.head = head && h.format = 0 && h.sector < p.sectors &&
        h.sector ≠ rc.slotNo then some h.sector
    else none
  | _, _ => none

/-- The tracker on a header resync (R50, R51). -/
def Board.takeResync (b : Board) (d : DriveNo) (k : Nat) : Board :=
  let x := b.drv d
  if x.rt.position = x.rc.slotNo then
    let rt := { x.rt with position := k, slipCount := (x.rt.slipCount + 1) % 65536 }
    (b.modRt d fun _ => rt).note (some d)
      (.slip true x.rt.position k none rt.revCount rt.slipCount)
  else b

/-- An image completed (R59, R60). -/
def Board.imageComplete (b : Board) (d : DriveNo) (frames : List CellFrame) : Board :=
  let rc := (b.drv d).rc
  let b1 := b.modRc d fun rc => rc.imageRead b.now frames
  if rc.activity = .reading ∧ rc.wordIndex = 2 ∧ frames.length = 2064 then
    match (b1.drv d).rc.resync (b1.drv d).profile with
    | some k => b1.takeResync d k
    | none => b1
  else b1

/-- SYNC_FOUND (R58). -/
def execSyncFound (d : DriveNo) (frames : List CellFrame) (s : State) : Host.Outcome State Fault Refusal :=
  onBoard s fun b => b.modRc d fun rc => rc.syncFound frames

/-- SYNC_HUNT_LIMIT (R58). -/
def execSyncHuntLimit (d : DriveNo) (frames : List CellFrame) (s : State) :
    Host.Outcome State Fault Refusal :=
  onBoard s fun b => b.modRc d fun rc => rc.huntLimit frames

/-- HEADER_WORDS_READ (R59). -/
def execHeaderWordsRead (d : DriveNo) (frames : List CellFrame) (s : State) :
    Host.Outcome State Fault Refusal :=
  onBoard s fun b => b.modRc d fun rc => rc.headerRead (b.drv d).profile frames

/-- IMAGE_COMPLETE (R59, R60, R50). -/
def execImageComplete (d : DriveNo) (frames : List CellFrame) (s : State) :
    Host.Outcome State Fault Refusal :=
  onBoard s fun b => b.imageComplete d frames

end Sys2Proof.Machine
end

