-- ==== Sys2Proof/Machine/Controller.lean ====
section
/-! DEFINITION. The controller port: the five commands, the controller's write gate, absorption, the end of an
emission, the wait for a slot, and BUS CLEAR (chapter 2). -/

namespace Sys2Proof.Machine

/-! ### Arrival of a command (R15, R20, R81) -/

/-- The effect of a latched command on the engine under LIVE_FIRST (R78, R81). -/
def Board.preempt (b : Board) (d : DriveNo) : Board :=
  let da := (b.drv d).da
  if da.share.mode = .liveFirst then
    match da.owner with
    | .enginePosition => b.modDa d fun da => { da with preempted := true }
    | .enginePass => b.modDa d fun da => { da with atBoundary := true }
    | .liveIdle | .liveBusy | .taking | .engineRestore | .offline => b
  else b

/-- A command latched in HELD (R15, R20, R81). -/
def Board.latch (b : Board) (d : DriveNo) (c : CtrlCmd) : Board :=
  ((b.modLp d fun lp => { lp with cmd := { CmdRec.idle with phase := .held, cmd := some c } }).modDa d fun da =>
    { da with held := true, holdStart := some b.now, limitHit := false }).preempt d

/-- The arrival of a command on the controller port (R15). One that finds the record in progress is ignored
(log entry 19). -/
def Board.arrive (b : Board) (d : DriveNo) (c : CtrlCmd) : Board :=
  let x := b.drv d
  if x.lp.cmd.phase ≠ .none then b
  else
    let b1 := b.modLp d fun lp => { lp with seOver := false, wpOver := false }
    if x.da.share.mode = .salvageOnly then b1
    else
      match x.da.owner with
      | .offline => b1
      | .liveIdle => b1.startCommand d c
      | .liveBusy | .taking | .enginePosition | .enginePass | .engineRestore => b1.latch d c

/-- SEEK (R15, R17, R18). -/
def execSeek (d : DriveNo) (cylinder : Fin 512) (s : State) : Host.Outcome State Fault Refusal :=
  onBoard s fun b => b.arrive d (.seek cylinder)

/-- RECALIBRATE (R15, R17, R18). -/
def execRecalibrate (d : DriveNo) (s : State) : Host.Outcome State Fault Refusal :=
  onBoard s fun b => b.arrive d .recalibrate

/-- HEAD_SELECT (R15, R17, R18). -/
def execHeadSelect (d : DriveNo) (head : Fin 4) (s : State) : Host.Outcome State Fault Refusal :=
  onBoard s fun b => b.arrive d (.headSelect head)

/-- READ (R15, R19, R23, R29). -/
def execRead (d : DriveNo) (sector : Fin 16) (s : State) : Host.Outcome State Fault Refusal :=
  onBoard s fun b => b.arrive d (.read sector)

/-- WRITE (R15, R19). -/
def execWrite (d : DriveNo) (sector : Fin 16) (s : State) : Host.Outcome State Fault Refusal :=
  onBoard s fun b => b.arrive d (.write sector)

/-! ### Write gates and diversions (R35, R37..R40) -/

/-- The drive's write gate of a live write dropped: an entry created at the target while it was up is
released, and what waited for the gate is handled (R35). At a later drop in the slot, an entry made between a first
drop and the second rise goes too (log entry 57). The release and its examination come before what waited (log entry
84). -/
def Board.gateDrop (b : Board) (d : DriveNo) : Board :=
  let lp := (b.drv d).lp
  if lp.gate then
    let b1 := b.modLp d fun lp => { lp with gate := false }
    let b2 := if lp.releases then (b1.releaseEntry lp.cmd.target).examine else b1
    (b2.afterGate d).examine
  else b

/-- A diversion abandoned: its held slot is let go, unless it is the slot of the entry now at its target,
and the buffer is INVALID (R39). One whose commit has begun goes on. -/
def Board.abandonDiversion (b : Board) (d : DriveNo) : Board :=
  match (b.drv d).lp.diversion with
  | none => b
  | some dv =>
    if dv.committing then b
    else
      let b1 := b.modLp d fun lp => { lp with diversion := none, buf := .empty }
      if (b1.ts.entry dv.target).any (·.slot = dv.slot) then b1 else (b1.letGo dv.slot).examine

/-- Whether a write that passes to the drive is in its slot (R34, R35). -/
def CmdRec.passes (c : CmdRec) : Bool :=
  c.phase = .transfer && (c.course = .plain || c.course = .pass) && match c.cmd with
    | some (.write _) => true
    | _ => false

/-- The controller raises its write gate (R35, R38). A write that was to pass, whose track has come under a live
job since its opening pulse, is refused as in R36: by the law of R35 it does not reach the surface (log entry
47). -/
def Board.gateRaise (b : Board) (d : DriveNo) : Board :=
  let x := b.drv d
  if x.pins.ctrlGate then b
  else
    let b1 := b.modPins d fun p => { p with ctrlGate := true }
    if x.lp.cmd.passes && (b.trackJob x.lp.cmd.target.track).isSome then
      b1.modLp d fun lp => { lp with wpOver := true, cmd := { lp.cmd with course := .refuse } }
    else if x.lp.cmd.passes then
      let b2 := b1.modLp d fun lp => { lp with gate := true }
      if x.lp.cmd.course = .pass ∧ !x.lp.releases then
        (b2.modLp d fun lp => { lp with releases := true }).releaseEntry x.lp.cmd.target
      else b2
    else
      b1.modLp d fun lp =>
        { lp with diversion := lp.diversion.map fun dv =>
            if dv.committing then dv else { dv with gate := true } }

/-- The controller drops its write gate (R35, R39). -/
def Board.gateFall (b : Board) (d : DriveNo) : Board :=
  if (b.drv d).pins.ctrlGate then
    ((b.modPins d fun p => { p with ctrlGate := false }).gateDrop d).abandonDiversion d
  else b

/-- The commit of a diversion begins with the controller's data and check word (R38, R40). -/
def Board.absorb (b : Board) (d : DriveNo) (data : List Word) (check : Word) : Board :=
  match (b.drv d).lp.diversion with
  | none => b
  | some dv =>
    if dv.gate && !dv.committing then
      let img := buildImage dv.target dv.volume data
      let sum := img.getD 130 0
      let b1 := if sum = check then b
        else b.note (some d) (.writeCheckMismatch dv.target check sum)
      (b1.modLp d fun lp =>
        { lp with diversion := some { dv with committing := true, image := img } }).request (.commit d) dv.slot
        (slotWrites dv.slot img fullValues)
    else b

/-- CONTROLLER_WRITE_GATE_RAISE (R35, R38). -/
def execControllerWriteGateRaise (d : DriveNo) (s : State) : Host.Outcome State Fault Refusal :=
  onBoard s fun b => b.gateRaise d

/-- CONTROLLER_WRITE_GATE_DROP (R35, R39). -/
def execControllerWriteGateDrop (d : DriveNo) (s : State) : Host.Outcome State Fault Refusal :=
  onBoard s fun b => b.gateFall d

/-- ABSORPTION_COMPLETE (R38, R40). -/
def execAbsorptionComplete (d : DriveNo) (data : List Word) (check : Word) (s : State) :
    Host.Outcome State Fault Refusal :=
  onBoard s fun b => b.absorb d data check

/-! ### Emission and the wait for a slot (R19, R28) -/

/-- An emission over: a change of the entry that came during it now invalidates the buffer (R28). -/
def Board.emissionOver (b : Board) (d : DriveNo) : Board :=
  let lp := (b.drv d).lp
  if lp.emission.isSome then
    let b1 := b.modLp d fun lp => { lp with emission := none, bufChanged := false }
    if lp.bufChanged then b1.voidBuffer d else b1
  else b

/-- A READ or WRITE in AWAITING_SLOT for 2 × P ends without a transfer (R19, R61). -/
def Board.slotTimeout (b : Board) (d : DriveNo) : Board :=
  let cmd := (b.drv d).lp.cmd
  if cmd.phase = .awaitingSlot ∧ cmd.limit ≤ b.since cmd.started then
    let b1 := match (b.drv d).rc.setup with
      | .live _ => b.withdraw d
      | .none | .pass _ => b
    (b1.modLp d fun lp => { lp with cmd := .idle }).liveEnded d
  else b

/-- EMISSION_END (R28). -/
def execEmissionEnd (d : DriveNo) (s : State) : Host.Outcome State Fault Refusal :=
  onBoard s fun b => b.emissionOver d

/-- AWAITING_SLOT_TIMEOUT (R19, R61). -/
def execAwaitingSlotTimeout (d : DriveNo) (s : State) : Host.Outcome State Fault Refusal :=
  onBoard s fun b => b.slotTimeout d

/-! ### The end of a transfer from outside, and BUS CLEAR (R19, R21, R67) -/

/-- A live transfer or wait broken off by BUS CLEAR or by the loss of READY: a relayed read's channel stops,
a passed write's gate drops, a diversion not committing is abandoned, an emission ends (R19, R21, R39, R67). -/
def Board.breakOff (b : Board) (d : DriveNo) : Board :=
  let b1 := match (b.drv d).rc.setup with
    | .live _ => b.stopChannel d
    | .none | .pass _ => b
  (((b1.gateDrop d).abandonDiversion d).emissionOver d).modLp d fun lp => { lp with releases := false }

/-- The emit buffer after a BUS CLEAR: INVALID, its fill abandoned; an absorption buffer whose commit has
begun becomes INVALID at the commit's end (R21). -/
def Board.clearBuffer (b : Board) (d : DriveNo) : Board :=
  match (b.drv d).lp.diversion with
  | some dv => b.modLp d fun lp => { lp with diversion := some { dv with cleared := true } }
  | none => b.voidBuffer d

/-- BUS CLEAR at one drive (R21). -/
def Board.busClearDrive (b : Board) (d : DriveNo) : Board :=
  let phase := (b.drv d).lp.cmd.phase
  let b1 := if phase = .awaitingSlot ∨ phase = .transfer then b.breakOff d else b
  let b2 := (b1.clearBuffer d).modLp d fun lp =>
    { lp with cmd := .idle, seOver := false, wpOver := false }
  match phase with
  | .none => b2
  | .held => b2.clearHold d
  | .seeking => b2
  | .awaitingSlot | .transfer => b2.liveEnded d

/-- BUS CLEAR (R21, R88), at the drives 0 to 3 in turn (log entry 68). -/
def Board.busClear (b : Board) : Board := ([0, 1, 2, 3] : List DriveNo).foldl Board.busClearDrive b

/-- BUS_CLEAR (R21). -/
def execBusClear (s : State) : Host.Outcome State Fault Refusal := onBoard s Board.busClear

end Sys2Proof.Machine
end

