-- ==== Sys2Proof/Machine/DriveEvents.lean ====
section
/-! DEFINITION. What a drive reports, and the timers that wait for it: the ends of movements, offset settling, READY,
and the loss of a drive (R17, R18, R68, R71, R77, R78, R84..R87). -/

namespace Sys2Proof.Machine

/-! ### Ends of movements (R17, R18, R71, R77, R78, R84) -/

/-- A seek or recalibrate that ended on a cylinder: the head cylinder, and the seek-fault mark cleared
(R70, R85). -/
def Board.headsAt (b : Board) (d : DriveNo) (c : Fin 512) : Board :=
  b.modDa d fun da => { da with headCyl := some c, seekFault := false }

/-- The head cylinder UNKNOWN (R71, R77). -/
def Board.headsLost (b : Board) (d : DriveNo) : Board := b.modDa d fun da => { da with headCyl := none }

/-- The end of a live seek, on cylinder or with a seek error, a forgotten one among them (R17, R18, R21,
R71). -/
def Board.liveSeekEnd (b : Board) (d : DriveNo) (ok : Bool) : Board :=
  let lp := (b.drv d).lp
  let b1 := if ok then b.headsAt d lp.pos.cyl else b.headsLost d
  (b1.modLp d fun lp =>
    { lp with pos := { lp.pos with established := ok }, seeking := false,
              cmd := if lp.cmd.phase = .seeking then .idle else lp.cmd }).liveEnded d

/-- Whether a positioning starts no further step, for the engine or for a held command (R78, R82, R83). -/
def Arbiter.stopping (da : Arbiter) : Bool := da.abandon || da.preempted

/-- A positioning step that has ended: the next step, or, when no further step may start, the positioning
abandoned (R77, R78, R82, R83). -/
def Board.thenStep (b : Board) (d : DriveNo) (next : Board → Board) : Board :=
  if (b.drv d).da.stopping then b.abandonPosition d else next b

/-- A RECALIBRATE of a positioning or restore sent to the drive (R77, R78, R84). -/
def Board.sendRecal (b : Board) (d : DriveNo) (w : Work) : Board :=
  (b.sendMove d).modDa d fun da => { da with work := w, workAt := b.now }

/-- A seek failure of a positioning (R77, R78). One that ends a positioning already abandoned is not
counted. -/
def Board.seekFailure (b : Board) (d : DriveNo) (offsetFault : Bool) : Board :=
  let b0 := if offsetFault then b else b.headsLost d
  let da := (b.drv d).da
  match da.served with
  | none => b0.abandonPosition d
  | some r =>
    if da.stopping then b0.abandonPosition d
    else
      let b1 := b0.modJob r.serial fun j => { j with seekFails := min 3 (j.seekFails + 1) }
      match b1.job r.serial with
      | none => b1.abandonPosition d
      | some j =>
        if 3 ≤ j.seekFails then
          ((b1.modDa d fun da => { da with served := none }).finish r.serial
            (if j.kind = .relay then .failedSeek else .seekFailed)).decide d
        else if !da.retryUsed then
          (b1.modDa d fun da => { da with retryUsed := true }).sendRecal d .retryRecal
        else b1.abandonPosition d

/-- A restore's seek or recalibrate that failed (R84). The head cylinder is UNKNOWN from the first failed seek on
(log entry 50). -/
def Board.restoreMoveFailed (b : Board) (d : DriveNo) : Board :=
  let da := (b.drv d).da
  if da.work = .restoreSeek ∧ !da.second then (b.headsLost d).sendRecal d .restoreRecal
  else b.restoreFail d

/-- An offset request settled: the phase, and the step that follows (R68, R77, R84). -/
def Board.offsetSettled (b : Board) (d : DriveNo) : Board :=
  let b1 := b.modRc d fun rc => { rc with settling := false }
  match (b.drv d).da.work with
  | .offsetOff => b1.thenStep d fun b => b.posRecal d
  | .offsetOn => b1.thenStep d fun b => b.posComplete d
  | .restoreOffset => b1.restoreSeek d
  | .idle | .recal | .seek | .retryRecal | .leftover | .restoreSeek | .restoreRecal => b

/-- An offset fault: a seek failure of a positioning; a restore goes on (R68, R77, R84). -/
def Board.offsetFault (b : Board) (d : DriveNo) : Board :=
  match (b.drv d).da.work with
  | .offsetOff | .offsetOn => b.seekFailure d true
  | .restoreOffset => b.restoreSeek d
  | .idle | .recal | .seek | .retryRecal | .leftover | .restoreSeek | .restoreRecal => b

/-- The drive reports its heads on cylinder (R17, R68, R77, R84). A report of a movement already given up, when none
is awaited, raises the line and nothing else (log entry 59). -/
def Board.onCylinder (b : Board) (d : DriveNo) : Board :=
  let x := b.drv d
  let b1 := b.modPins d fun p => { p with onCylinder := true }
  if x.lp.seeking then b1.liveSeekEnd d true
  else
    match x.da.work with
    | .recal | .retryRecal => (b1.headsAt d 0).thenStep d fun b => b.posSeek d
    | .seek => (b1.headsAt d (Fin.ofNat 512 x.da.plan.cyl)).thenStep d fun b => b.posHead d
    | .restoreSeek => (b1.headsAt d x.lp.pos.cyl).restoreHead d
    | .restoreRecal => ((b1.headsAt d 0).modDa d fun da => { da with second := true }).sendRestoreSeek d
    | .leftover => (b1.modDa d fun da => { da with work := .idle }).restoreSteps d
    | .offsetOff | .offsetOn | .restoreOffset =>
      if x.rc.settling ∧ 1000 ≤ b.since x.rc.offsetAt then b1.offsetSettled d else b1
    | .idle => b1

/-- The drive reports a seek error (R17, R68, R78, R84). -/
def Board.seekError (b : Board) (d : DriveNo) : Board :=
  let x := b.drv d
  let b1 := b.modPins d fun p => { p with seekError := true }
  if x.lp.seeking then b1.liveSeekEnd d false
  else
    match x.da.work with
    | .recal | .retryRecal | .seek => b1.seekFailure d false
    | .restoreSeek | .restoreRecal => b1.restoreMoveFailed d
    | .leftover => (b1.modDa d fun da => { da with work := .idle }).restoreSteps d
    | .offsetOff | .offsetOn | .restoreOffset => if x.rc.settling then b1.offsetFault d else b1
    | .idle => b1

/-- DRIVE_ON_CYLINDER (R17). -/
def execDriveOnCylinder (d : DriveNo) (s : State) : Host.Outcome State Fault Refusal :=
  onBoard s fun b => b.onCylinder d

/-- DRIVE_SEEK_ERROR (R17, R78). -/
def execDriveSeekError (d : DriveNo) (s : State) : Host.Outcome State Fault Refusal :=
  onBoard s fun b => b.seekError d

/-! ### Timers (R68, R77, R84) -/

/-- Whether a work is an offset request's settling. -/
def Work.settles : Work → Bool
  | .offsetOff | .offsetOn | .restoreOffset => true
  | .idle | .recal | .seek | .retryRecal | .leftover | .restoreSeek | .restoreRecal => false

/-- 1 ms after an offset change, with the drive's ON_CYLINDER line as it then is (R68). -/
def Board.settleTimer (b : Board) (d : DriveNo) (onCyl : Bool) : Board :=
  let x := b.drv d
  if x.rc.settling && x.da.work.settles && 1000 ≤ b.since x.rc.offsetAt then
    let b1 := b.modPins d fun p => { p with onCylinder := onCyl }
    if onCyl then b1.offsetSettled d else b1
  else b

/-- 100 ms after an offset change without a settle (R68). -/
def Board.faultTimer (b : Board) (d : DriveNo) : Board :=
  let x := b.drv d
  if x.rc.settling && x.da.work.settles && 100000 ≤ b.since x.rc.offsetAt then b.offsetFault d else b

/-- 500 ms after a positioning movement was sent (R77). -/
def Board.engineSeekTimer (b : Board) (d : DriveNo) : Board :=
  let da := (b.drv d).da
  match da.work with
  | .recal | .retryRecal | .seek => if 500000 ≤ b.since da.workAt then b.seekFailure d false else b
  | .idle | .offsetOff | .offsetOn | .leftover | .restoreOffset | .restoreSeek | .restoreRecal => b

/-- 500 ms after a restore movement was sent (R84); a movement left by a RESTART counts as ended (R88, log
entry 14). -/
def Board.restoreTimer (b : Board) (d : DriveNo) : Board :=
  let da := (b.drv d).da
  match da.work with
  | .restoreSeek | .restoreRecal => if 500000 ≤ b.since da.workAt then b.restoreMoveFailed d else b
  | .leftover =>
    if 500000 ≤ b.since da.workAt then (b.modDa d fun da => { da with work := .idle }).restoreSteps d else b
  | .idle | .offsetOff | .offsetOn | .recal | .seek | .retryRecal | .restoreOffset => b

/-- OFFSET_SETTLE_TIMER (R68). -/
def execOffsetSettleTimer (d : DriveNo) (onCyl : Bool) (s : State) : Host.Outcome State Fault Refusal :=
  onBoard s fun b => b.settleTimer d onCyl

/-- OFFSET_FAULT_TIMEOUT (R68). -/
def execOffsetFaultTimeout (d : DriveNo) (s : State) : Host.Outcome State Fault Refusal :=
  onBoard s fun b => b.faultTimer d

/-- ENGINE_SEEK_TIMEOUT (R77, R78). -/
def execEngineSeekTimeout (d : DriveNo) (s : State) : Host.Outcome State Fault Refusal :=
  onBoard s fun b => b.engineSeekTimer d

/-- RESTORE_SEEK_TIMEOUT (R84, R85). -/
def execRestoreSeekTimeout (d : DriveNo) (s : State) : Host.Outcome State Fault Refusal :=
  onBoard s fun b => b.restoreTimer d

/-! ### READY (R18..R20, R67, R86, R87) -/

/-- LP's part in the loss of READY: the live command and any held command end (R17..R20). -/
def Board.liveOffline (b : Board) (d : DriveNo) : Board :=
  let phase := (b.drv d).lp.cmd.phase
  let b1 := if phase = .awaitingSlot ∨ phase = .transfer then b.breakOff d else b
  b1.modLp d fun lp =>
    { lp with cmd := .idle, seeking := false, pos := { lp.pos with established := false } }

/-- The channel's part: it stops at once, and its offset request falls (R67). -/
def Board.channelOffline (b : Board) (d : DriveNo) : Board :=
  (b.stopChannel d).modRc d fun rc => { rc with offset := .zero, settling := false }

/-- The engine's part, by the state the arbiter leaves (R86). -/
def Board.engineOffline (b : Board) (d : DriveNo) : Board :=
  let da := (b.drv d).da
  match da.owner with
  | .enginePosition =>
    match da.served with
    | some r => b.enginePosEnd r.serial
    | none => b
  | .enginePass => b.endPass d false
  | .liveIdle | .liveBusy | .taking | .engineRestore | .offline => b

/-- The arbiter OFFLINE (R70, R86). -/
def Board.goOffline (b : Board) (d : DriveNo) : Board :=
  (b.applyPending d).modDa d fun da =>
    { da with owner := .offline, held := false, holdStart := none, limitHit := false, headCyl := none,
              enginePos := none, served := none, passKind := none, slots := 0, atBoundary := false,
              work := .idle, abandon := false, preempted := false, stopAtEnd := false, missed := false,
              writing := none, writeImage := [],
              offlineStart := some b.now }

/-- The drive drops READY (R86). OFFLINE is queued before the notices that what it stops raises (R67; log entry 77). -/
def Board.readyDrop (b : Board) (d : DriveNo) : Board :=
  let x := b.drv d
  if !x.pins.ready then b
  else
    let b1 := (b.modPins d fun p => { p with ready := false }).note (some d)
      (.offline x.da.owner (x.da.served.map (·.id)))
    ((((b1.liveOffline d).channelOffline d).engineOffline d).goOffline d)

/-- The drive raises READY again (R87, R103). -/
def Board.readyRise (b : Board) (d : DriveNo) : Board :=
  let x := b.drv d
  if x.pins.ready then b
  else
    let away := x.da.offlineStart.map fun t => b.since t / 1000
    let b1 := (b.modPins d fun p => { p with ready := true }).modDa d fun da =>
      { da with owner := .liveIdle, idleStart := some b.now, offlineStart := none, lost := false,
                seekFault := false }
    { b1.note (some d) (.ready away) with exam := b1.exam || x.da.lost }

/-- A drive OFFLINE for more than 10 s is lost, and its live jobs finish in filing order (R87, R111). -/
def Board.driveLost (b : Board) (d : DriveNo) : Board :=
  let da := (b.drv d).da
  let due : Bool := match da.offlineStart with
    | some t => 10000000 < b.since t
    | none => false
  if da.owner = .offline ∧ !da.lost ∧ due then
    let b1 := b.modDa d fun da => { da with lost := true }
    ((b1.re.jobs.filter (·.drive = d)).map (·.serial)).foldl (fun b s => b.finish s .driveLost) b1
  else b

/-- DRIVE_READY_DROP (R86). -/
def execDriveReadyDrop (d : DriveNo) (s : State) : Host.Outcome State Fault Refusal :=
  onBoard s fun b => b.readyDrop d

/-- DRIVE_READY_RISE (R87). -/
def execDriveReadyRise (d : DriveNo) (s : State) : Host.Outcome State Fault Refusal :=
  onBoard s fun b => b.readyRise d

/-- OFFLINE_LOST_TIMEOUT (R87, R111). -/
def execOfflineLostTimeout (d : DriveNo) (s : State) : Host.Outcome State Fault Refusal :=
  onBoard s fun b => b.driveLost d

end Sys2Proof.Machine
end

