-- ==== Sys2Proof/Machine/Enquiries.lean ====
section
/-! DEFINITION. The requests that enquire: identity, time, drives, profiles, the ladder, jobs, suspects, the keep
directory and the store log (R166, R168..R171). They change nothing but the link. -/

namespace Sys2Proof.Machine

/-- A request answered OK with fields. -/
def Board.ok (b : Board) (fields : List Byte) : Board := b.reply .ok false fields

/-- The answer to IDENTIFY (R166). -/
def Board.identify (b : Board) (_ : List Byte) : Board :=
  b.ok (bytesOf 2 Config.vendorCode ++ bytesOf 2 Config.partCode ++ [1, 4] ++ bytesOf 2 Config.keepSlots ++
    bytesOf 2 (Config.allSlots - Config.keepSlots) ++ bytesOf 4 b.ts.epoch ++ [markByte b.ts.init.isSome])

/-- The answer to GET_TIME (R166). -/
def Board.getTime (b : Board) (_ : List Byte) : Board := b.ok (timeBytes b.now)

/-- The answer to GET_DRIVE (R166). -/
def Board.getDrive (b : Board) (p : List Byte) : Board :=
  match readDrive p 0 with
  | some d => b.ok (b.driveBytes d)
  | none => b.deny .range

/-- The answer to GET_PROFILE (R166). -/
def Board.getProfile (b : Board) (p : List Byte) : Board :=
  match readDrive p 0 with
  | some d => b.ok (b.drv d).profile.bytes
  | none => b.deny .range

/-- The answer to GET_LADDER (R168). -/
def Board.getLadder (b : Board) (_ : List Byte) : Board := b.ok (ladderBytes b.re.ladder)

/-- The answer to GET_JOB (R90, R169). -/
def Board.getJob (b : Board) (p : List Byte) : Board :=
  let part := u8 p 1
  if 16 < part then b.deny .range
  else
    match b.jobById (u8 p 0) with
    | none => b.deny .notFound
    | some j =>
      if part = 0 then b.ok j.partBytes
      else
        match j.kind with
        | .survey => b.deny .notFound
        | .salvage =>
          match j.sectorRec (part - 1) with
          | some r => b.ok (b.su.sectorBytes j.serial r)
          | none => b.deny .notFound
        | .relay =>
          match j.relayRec (part - 1) with
          | some r => b.ok (r.bytes (b.sourceOf j.track r))
          | none => b.deny .notFound

/-- The answer to LIST_JOBS (R90, R169). -/
def Board.listJobs (b : Board) (_ : List Byte) : Board :=
  b.ok (byteOf b.re.jobs.length :: b.re.jobs.flatMap Job.listBytes)

/-- The answer to LIST_SUSPECTS (R101, R170). -/
def Board.listSuspects (b : Board) (p : List Byte) : Board :=
  if 3 < u8 p 0 then b.deny .range
  else
    let page := (b.re.suspects.drop (16 * u8 p 0)).take 16
    b.ok ([byteOf b.re.suspects.length, byteOf page.length] ++ page.flatMap Suspect.bytes)

/-- The answer to LIST_KEEP (R136). -/
def Board.listKeep (b : Board) (p : List Byte) : Board :=
  if b.ts.init.isSome then b.deny .notReady
  else
    match readAddr p 0 with
    | none => b.deny .range
    | some a =>
      let rest := b.ts.dir.filter fun e => a.key ≤ e.addr.key
      let page := rest.take 32
      let next := rest.drop 32
      b.ok ([byteOf page.length, markByte !next.isEmpty] ++
        optBytes 5 (next.head?.map (·.addr.bytes)) ++ page.flatMap KeepEntry.bytes)

/-- The answer to GET_STORE_LOG (R145, R171). -/
def Board.getStoreLog (b : Board) (_ : List Byte) : Board :=
  b.ok (byteOf b.sk.log.length :: b.sk.log.flatMap LogEntry.bytes ++ bytesOf 4 b.sk.address ++
    bytesOf 2 b.sk.interval ++ [markByte b.sk.waiting])

/-- IDENTIFY. -/
def execIdentify (s : State) : Host.Outcome State Fault Refusal := handleRequest s 0x01 Board.identify

/-- GET_TIME. -/
def execGetTime (s : State) : Host.Outcome State Fault Refusal := handleRequest s 0x02 Board.getTime

/-- GET_DRIVE. -/
def execGetDrive (s : State) : Host.Outcome State Fault Refusal := handleRequest s 0x03 Board.getDrive

/-- GET_PROFILE. -/
def execGetProfile (s : State) : Host.Outcome State Fault Refusal := handleRequest s 0x06 Board.getProfile

/-- GET_LADDER. -/
def execGetLadder (s : State) : Host.Outcome State Fault Refusal := handleRequest s 0x09 Board.getLadder

/-- GET_JOB. -/
def execGetJob (s : State) : Host.Outcome State Fault Refusal := handleRequest s 0x0C Board.getJob

/-- LIST_JOBS. -/
def execListJobs (s : State) : Host.Outcome State Fault Refusal := handleRequest s 0x0D Board.listJobs

/-- LIST_SUSPECTS. -/
def execListSuspects (s : State) : Host.Outcome State Fault Refusal :=
  handleRequest s 0x0E Board.listSuspects

/-- LIST_KEEP. -/
def execListKeep (s : State) : Host.Outcome State Fault Refusal := handleRequest s 0x10 Board.listKeep

/-- GET_STORE_LOG. -/
def execGetStoreLog (s : State) : Host.Outcome State Fault Refusal :=
  handleRequest s 0x16 Board.getStoreLog

end Sys2Proof.Machine
end

