-- ==== Sys2Proof/Machine/LinkEvents.lean ====
section
/-! DEFINITION. The events of the service line: bytes, frames, faults, gaps, breaks, and the end of a frame sent
(R155..R162), with the RESTART request. -/

namespace Sys2Proof.Machine

/-- BYTE_RECEIVED (R155). -/
def execByteReceived (x : Byte) (s : State) : Host.Outcome State Fault Refusal :=
  onLink s fun b l => takeByte b l x

/-- The second check byte of a frame taken (R155). -/
def takeLastByte (b : Board) (l : Link) (x : Byte) : Board × Link :=
  match l.framer.phase, l.framer.checkHigh with
  | .check, some h => endFrame b l (h ++ x)
  | _, _ => (b, l)

/-- FRAME_RECEIVED (R155..R157). -/
def execFrameReceived (last : Byte) (s : State) : Host.Outcome State Fault Refusal :=
  onLink s fun b l => takeLastByte b l last

/-- Whether a frame is in progress (R156). -/
def Framer.inFrame (f : Framer) : Bool := f.phase ≠ .hunt && f.phase ≠ .broken

/-- FRAMING_FAULT (R155). -/
def execFramingFault (s : State) : Host.Outcome State Fault Refusal :=
  onLink s fun b l => if l.framer.inFrame then discardFrame b l .framing else (b, l)

/-- Whether the gap timer has run out (R156). -/
def gapDue (b : Board) (f : Framer) : Bool :=
  f.inFrame && match f.lastByte with
    | some t => 20000 < b.since t
    | none => false

/-- FRAME_GAP_TIMEOUT (R156). -/
def execFrameGapTimeout (s : State) : Host.Outcome State Fault Refusal :=
  onLink s fun b l => if gapDue b l.framer then discardFrame b l .gap else (b, l)

/-- Whether a reply is the request in hand's, not a BUSY reply (R157). -/
def Reply.inHand (r : Reply) : Bool := r.answer.status ≠ .busy

/-- Whether the reply of the request in hand is on the line. -/
def Link.sendingHand (l : Link) : Bool :=
  match l.tx with
  | some (.reply r) => r.inHand
  | some (.notice _) | none => false

/-- The frame on the line has been sent to its end (R158, R159, R162). -/
def Link.frameEnd (l : Link) : Link :=
  let l1 := { l with tx := none }
  if l.sendingHand then
    match l.restart with
    | .replying => { l1 with restart := .due }
    | .none | .due => { l1 with queue := l.queue.drop 1, hand := .fresh }
  else l1

/-- TRANSMIT_FRAME_END (R158, R159, R162). -/
def execTransmitFrameEnd (s : State) : Host.Outcome State Fault Refusal :=
  onLink s fun b l => (b, l.frameEnd)

/-- What a LINE BREAK leaves of the request in hand and its reply (R161, R162). -/
def Link.breakHand (l : Link) : Link :=
  match l.queue with
  | [] => { l with replies := [] }
  | r :: _ =>
    if l.sendingHand then { l with queue := [r], replies := [] }
    else
      match l.restart, l.hand with
      | .replying, _ => { l with queue := [r], replies := [], restart := .due }
      | .due, _ => { l with queue := [r], replies := [] }
      | .none, .replied => { l with queue := [], replies := [], hand := .fresh }
      | .none, .fresh => { l with queue := [r], replies := [], dropReply := true }
      | .none, .handling => { l with queue := [r], replies := [], dropReply := true }

/-- The LINE BREAK reset (R161). One break gives one LINE BREAK, but for a break inside which a RESTART reset has
put the framer into HUNT (log entry 64). -/
def lineBreak (b : Board) (l : Link) : Board × Link :=
  if l.framer.phase = .broken then (b, l)
  else
    (b.note none .lineBreak, { l.breakHand with framer := { Framer.hunting with phase := .broken } })

/-- LINE_BREAK (R161, R162). -/
def execLineBreak (s : State) : Host.Outcome State Fault Refusal := onLink s lineBreak

/-- BREAK_END (R161). -/
def execBreakEnd (s : State) : Host.Outcome State Fault Refusal :=
  onLink s fun b l => if l.framer.phase = .broken then (b, { l with framer := .hunting }) else (b, l)

/-- The RESTART request handled: its reply is OK and no further request is taken into hand; with its reply
dropped by a LINE BREAK the reset is due at once (R162). -/
def restartRequest (b : Board) (l : Link) : Board × Link :=
  match l.inHand with
  | some r =>
    if r.kind = 0x19 then
      if lengthFits r.kind r.payload then
        (b.reply .ok false [], { l with restart := if l.dropReply then .due else .replying })
      else (b.deny .badRequest, l)
    else (b, l)
  | none => (b, l)

/-- RESTART (R162). -/
def execRestart (s : State) : Host.Outcome State Fault Refusal := onLink s restartRequest

end Sys2Proof.Machine
end

