-- ==== Sys2Proof/Machine/Pulses.lean ====
section
/-! DEFINITION. The drive's pulses: what a sector pulse closes and opens for the tracker, LP, the channel and the
arbiter, the index pulse, and the index watchdog (R4, R19, R26, R28, R33..R37, R42..R49, R63, R79, R106). -/

namespace Sys2Proof.Machine

/-! ### The tracker (R42..R49, R51) -/

/-- The position advanced by a sector pulse (R42). -/
def Tracker.advance (rt : Tracker) (sectors : Nat) : Tracker :=
  if sectors ≤ rt.position + 1 then
    { rt with position := 0, suppress := false,
              revCount := if rt.suppress then rt.revCount else (rt.revCount + 1) % 2 ^ 32 }
  else { rt with position := rt.position + 1, suppress := false }

/-- The position at an index pulse in LOCKED or FREE_RUN, and whether it is a SLIP (R43, R51). -/
def Tracker.correct (rt : Tracker) (sectors : Nat) : Tracker × Bool :=
  if rt.position + 1 = sectors then ({ rt with suppress := false }, false)
  else
    ({ rt with position := sectors - 1, suppress := rt.position < sectors / 2,
               slipCount := (rt.slipCount + 1) % 65536 }, true)

/-- The index correction of drive d with its SLIP notice (R43, R51). -/
def Board.correctIndex (b : Board) (d : DriveNo) : Board :=
  let x := b.drv d
  let (rt, slip) := x.rt.correct x.profile.sectors
  let b1 := b.modRt d fun _ => rt
  if slip then
    b1.note (some d) (.slip false x.rt.position rt.position (some rt.suppress) rt.revCount rt.slipCount)
  else b1

/-- A period recorded (R45). -/
def Tracker.record (rt : Tracker) (period : Nat) (now : Time) : Tracker :=
  let h := rt.history ++ [period]
  { rt with history := if 8 < h.length then h.drop 1 else h, lastIndex := some now }

/-- A period judged against the speed band (R46), with the notice it raises. -/
def Tracker.judge (rt : Tracker) (p : Profile) (period : Nat) : Tracker × Option NoticeBody :=
  let run := if p.inSpeedBand period then min 8 (rt.inBand + 1) else 0
  let rt1 := { rt with inBand := run }
  let average := (rt1.average.getD 0)
  if rt.doubt then
    if run = 8 then ({ rt1 with doubt := false }, some (.speedGood average)) else (rt1, none)
  else
    match rt1.average with
    | some a =>
      if p.inSpeedBand a then (rt1, none)
      else ({ rt1 with doubt := true }, some (.speedDoubt false (some a)))
    | none => (rt1, none)

/-- An index pulse in LOCKED (R43, R45, R46): a SLIP is raised before SPEED_DOUBT (log entry 38). -/
def Board.indexLocked (b : Board) (d : DriveNo) : Board :=
  let x := b.drv d
  let period := b.since (x.rt.lastIndex.getD b.now)
  let b1 := (b.correctIndex d).modRt d fun rt => rt.record period b.now
  let (rt, note) := (b1.drv d).rt.judge x.profile period
  let b2 := b1.modRt d fun _ => rt
  match note with
  | some n => (b2.note (some d) n).enterTaking d
  | none => b2

/-- An index pulse in FREE_RUN (R49). -/
def Board.indexFreeRun (b : Board) (d : DriveNo) : Board :=
  let away := b.since ((b.drv d).rt.lastIndex.getD b.now)
  let b1 := (b.correctIndex d).modRt d fun rt =>
    { rt with history := [], inBand := 0, lastIndex := some b.now, state := .locked }
  b1.note (some d) (.indexBack away (b1.drv d).rt.revCount)

/-- An index pulse (R43, R44, R49). -/
def Board.indexPulse (b : Board) (d : DriveNo) : Board :=
  let x := b.drv d
  match x.rt.state with
  | .searching =>
    b.modRt d fun rt =>
      { rt with position := x.profile.sectors - 1, suppress := false, state := .locked,
                lastIndex := some b.now }
  | .locked => b.indexLocked d
  | .freeRun => b.indexFreeRun d

/-- The expiry of the index watchdog after the index pulse at a time (R48). -/
def Board.watchdogExpire (b : Board) (d : DriveNo) (last : Time) : Board :=
  let rt := (b.drv d).rt
  let b1 := (b.modRt d fun rt => { rt with state := .freeRun, inBand := 0, doubt := true }).note (some d)
    (.indexLost last rt.revCount)
  if rt.doubt then b1 else b1.note (some d) (.speedDoubt true rt.average)

/-- The index watchdog, expired when its limit is passed (R47, R48). -/
def Board.watchdog (b : Board) (d : DriveNo) : Board :=
  let x := b.drv d
  match x.rt.lastIndex with
  | some t => if x.rt.watchdogDue x.profile (b.since t) then b.watchdogExpire d t else b
  | none => b

/-- INDEX_PULSE (R43, R44, R49). -/
def execIndexPulse (d : DriveNo) (s : State) : Host.Outcome State Fault Refusal :=
  onBoard s fun b => b.indexPulse d

/-- INDEX_WATCHDOG_EXPIRY (R47, R48). -/
def execIndexWatchdogExpiry (d : DriveNo) (s : State) : Host.Outcome State Fault Refusal :=
  onBoard s fun b => b.watchdog d

/-! ### The closing of a slot (R19, R28, R35, R39, R40) -/

/-- LP's record NONE at the end of its slot. -/
def Board.endRecord (b : Board) (d : DriveNo) : Board :=
  b.modLp d fun lp => { lp with cmd := .idle, releases := false }

/-- The closing pulse of a slot for LP: what remains, and whether the live command has ended (R19). -/
def Board.closeSlot (b : Board) (d : DriveNo) : Board × Bool :=
  let lp := (b.drv d).lp
  if lp.cmd.phase ≠ .transfer then (b, false)
  else
    match lp.cmd.course with
    | .divert =>
      if lp.diversion.any (·.committing) then (b, false)
      else ((b.abandonDiversion d).endRecord d, true)
    | .emit => ((b.emissionOver d).endRecord d, true)
    | .plain | .pass => ((b.gateDrop d).endRecord d, true)
    | .relay | .protect | .refuse | .undecided => (b.endRecord d, true)

/-! ### The opening of a slot (R19, R26, R28, R33..R37) -/

/-- The record in TRANSFER with its course. -/
def Board.transfer (b : Board) (d : DriveNo) (c : Course) : Board :=
  b.modLp d fun lp => { lp with cmd := { lp.cmd with phase := .transfer, course := c } }

/-- A write refused: WRITE_PROTECT is shown until the next command (R36). -/
def Board.refuseWrite (b : Board) (d : DriveNo) : Board :=
  (b.transfer d .refuse).modLp d fun lp => { lp with wpOver := true }

/-- The diversion-off rule (R36). -/
def Board.diversionOff (b : Board) (d : DriveNo) (a : Addr) : Board :=
  if (b.trackJob a.track).isSome then b.refuseWrite d else b.transfer d .pass

/-- A diversion started with its held slot (R37, R38). -/
def Board.startDivert (b : Board) (d : DriveNo) (a : Addr) (slot : Nat) : Board :=
  ((b.abandonFill d).transfer d .divert).modLp d fun lp =>
    { lp with
      buf := { state := .absorbing, addr := a, image := [] },
      diversion := some { target := a, slot := slot, volume := buildVolume (b.drv d).profile,
                          header := buildHeader a (buildVolume (b.drv d).profile), gate := false,
                          committing := false, image := [], cleared := false } }

/-- The course of a WRITE at its opening pulse (R34). A write that would be diverted while an earlier commit
still runs on the drive is under the diversion-off rule (log entry 15). -/
def Board.openWrite (b : Board) (d : DriveNo) : Board :=
  let x := b.drv d
  let a := x.lp.cmd.target
  if x.lp.cmd.beyond then
    if (b.trackJob a.track).isSome then b.refuseWrite d else b.transfer d .plain
  else if x.pins.writeProtect then b.transfer d .protect
  else if !b.guarded a then b.transfer d .pass
  else if x.lp.divert && x.lp.diversion.isNone then
    match b.ts.entry a, b.ts.freeKeepSlot with
    | some e, _ => b.startDivert d a e.slot
    | none, some slot => (b.setKeep slot .held).startDivert d a slot
    | none, none => b.diversionOff d a
  else b.diversionOff d a

/-- A READ at its opening pulse: emitted, relayed, or passed by address (R13, R26, R28, R29). -/
def Board.openRead (b : Board) (d : DriveNo) : Board :=
  let lp := (b.drv d).lp
  let k := lp.cmd.target.sector.val
  match lp.cmd.course with
  | .emit =>
    if lp.buf.state = .valid ∧ lp.buf.addr = lp.cmd.target then
      (b.transfer d .emit).modLp d fun lp => { lp with emission := some lp.buf.image, bufChanged := false }
    else (((b.voidBuffer d).makeRelay d).transfer d .relay).openLive d k
  | .relay => (b.transfer d .relay).openLive d k
  | .plain | .undecided | .pass | .protect | .refuse | .divert => b.transfer d .plain

/-- The opening pulse of slot k for LP (R19). -/
def Board.openSlot (b : Board) (d : DriveNo) (k : Nat) : Board :=
  let cmd := (b.drv d).lp.cmd
  if cmd.phase = .awaitingSlot ∧ cmd.target.sector.val = k then
    match cmd.cmd with
    | some (.write _) => b.openWrite d
    | some (.read _) => b.openRead d
    | some (.seek _) | some .recalibrate | some (.headSelect _) | none => b
  else b

/-! ### The engine's pass (R4, R62, R79, R106, R141) -/

/-- A slot of a WRITE pass that opens before its image is ready: the fill is abandoned, the sector is not written,
and the pass ends at the boundary as abandoned, at its S-th slot too (R141). -/
def Board.missSlot (b : Board) (d : DriveNo) : Board :=
  (b.dropWriteFill d).modDa d fun da => { da with atBoundary := true, missed := true }

/-- The opening pulse of slot k in a WRITE pass: the sector is written when its image is ready, and the next
sector's image is requested (R4, R106, R141). -/
def Board.openWriteSlot (b : Board) (d : DriveNo) (k : Nat) : Board :=
  let da := (b.drv d).da
  let sectors := (b.drv d).profile.sectors
  match da.wbuf, da.served with
  | .ready n fromImage img, some r =>
    if n = k then
      let b1 := (b.modDa d fun da => { da with writing := some k, writeImage := img, wbuf := .empty }).modJob
        r.serial fun j =>
          { j.modRelay k fun r => { r with written := fromImage } with written := true }
      if da.slots < sectors then b1.startWriteFill d r.serial ((k + 1) % sectors) else b1
    else b.missSlot d
  | _, _ => b.missSlot d

/-- The opening pulse of slot k during a pass (R62, R79). -/
def Board.openPassSlot (b : Board) (d : DriveNo) (k : Nat) : Board :=
  let b1 := b.modDa d fun da => { da with slots := da.slots + 1 }
  match (b1.drv d).da.passKind with
  | some .write => b1.openWriteSlot d k
  | some .read => b1.openPass d k
  | none => b1

/-- Whether a pass ends at this closing pulse (R79, R81..R83). -/
def Drive.passEnds (x : Drive) : Bool :=
  x.da.owner = .enginePass &&
    (x.da.atBoundary || x.da.stopAtEnd || x.profile.sectors ≤ x.da.slots)

/-- Whether a pass that ends at this closing pulse is full (R79, R141). -/
def Drive.passFull (x : Drive) : Bool := x.profile.sectors ≤ x.da.slots && !x.da.missed

/-- A sector pulse: the slot open closes, the tracker counts, the next slot opens (R42, R63, R79). -/
def Board.sectorPulse (b : Board) (d : DriveNo) (writeProtect : Bool) : Board :=
  let x := b.drv d
  let b1 := (b.modPins d fun p => { p with writeProtect := writeProtect }).reportSlot d
  let (b2, ended) := b1.closeSlot d
  let b3 := (b2.modDa d fun da => { da with writing := none, writeImage := [] }).modRt d fun rt =>
    rt.advance x.profile.sectors
  let k := (b3.drv d).rt.position
  let b4 := if x.da.owner = .enginePass && !x.passEnds then b3.openPassSlot d k else b3
  let b5 := if ended then b4.liveEnded d else b4.openSlot d k
  if x.passEnds then
    if x.da.stopAtEnd then b5.passStop d else b5.passEnd d x.passFull
  else b5

/-- SECTOR_PULSE (R42, R63, R79). -/
def execSectorPulse (d : DriveNo) (writeProtect : Bool) (s : State) : Host.Outcome State Fault Refusal :=
  onBoard s fun b => b.sectorPulse d writeProtect

/-- The last cell of a RELAY sector written: the gate drops, and a stop that waited for it ends the pass
(R4, R83). -/
def Board.sectorWritten (b : Board) (d : DriveNo) : Board :=
  let da := (b.drv d).da
  if da.writing.isSome then
    let b1 := b.modDa d fun da => { da with writing := none, writeImage := [] }
    if da.stopAtEnd then b1.passStop d else b1
  else b

/-- RELAY_SECTOR_WRITE_END (R4, R83). -/
def execRelaySectorWriteEnd (d : DriveNo) (s : State) : Host.Outcome State Fault Refusal :=
  onBoard s fun b => b.sectorWritten d

end Sys2Proof.Machine
end

