-- ==== Sys2Proof/Machine/Requests.lean ====
section
/-! DEFINITION. The requests that act: jobs, suspects and the store (R91, R101, R110, R136..R140, R145), and a kind
that names no request (R165). -/

namespace Sys2Proof.Machine

/-- FILE_JOB handled: at once, or when the write gate raised on its track drops (R35, R91). One with a field that fails
its coding is refused at once, though a gate is up on its track (R165; log entry 83). -/
def Board.fileJob (b : Board) (p : List Byte) : Board :=
  match readFile p with
  | some (r, _) =>
    if r.kind ≠ .survey ∧ b.gateOnTrack r.track then { b with filing := some p } else b.fileNow p
  | none => b.fileNow p

/-- CANCEL_JOB handled (R110). -/
def Board.cancelJob (b : Board) (p : List Byte) : Board :=
  match b.jobById (u8 p 0) with
  | some j => (b.ok []).finish j.serial .cancelled
  | none => b.deny .notFound

/-- DROP_SUSPECT handled (R101, R170). -/
def Board.dropSuspect (b : Board) (p : List Byte) : Board :=
  match readTrack p 0 with
  | none => b.deny .range
  | some t =>
    if b.re.suspects.any (·.track = t) then
      ({ b with re := { b.re with suspects := b.re.suspects.filter (·.track ≠ t) } } : Board).ok []
    else b.deny .notFound

/-- FETCH_SECTOR handled: the read of the entry's slot is requested (R136). -/
def Board.fetchSector (b : Board) (p : List Byte) : Board :=
  if b.ts.init.isSome then b.deny .notReady
  else
    match readAddr p 0 with
    | none => b.deny .range
    | some a =>
      match b.ts.entry a with
      | none => b.deny .notFound
      | some e => b.request (.fetchSector a) e.slot (slotReads e.slot Config.slotCells)

/-- The capture or image a FETCH_CAPTURE names (R137). -/
def Job.captureAt (j : Job) (k index : Nat) : Option Capture :=
  match j.kind with
  | .salvage => (j.sectorRec k).bind fun r => (r.caps.filter (·.held))[index]?
  | .relay => if index = 0 then (j.relayRec k).bind (·.image) else none
  | .survey => none

/-- FETCH_CAPTURE handled: the read of the capture's slot is requested (R137). -/
def Board.fetchCapture (b : Board) (p : List Byte) : Board :=
  if b.ts.init.isSome then b.deny .notReady
  else
    match b.jobById (u8 p 0) with
    | none => b.deny .notFound
    | some j =>
      match j.captureAt (u8 p 1) (u8 p 2) with
      | none => b.deny .notFound
      | some c =>
        b.request (.fetchCapture j.serial (u8 p 1) c) c.slot (slotReads c.slot Config.slotCells)

/-- STORE_SECTOR handled: a HELD slot is taken and the built image's write requested (R8, R138). -/
def Board.storeSector (b : Board) (p : List Byte) : Board :=
  if b.ts.init.isSome then b.deny .notReady
  else
    match readAddr p 0 with
    | none => b.deny .range
    | some a =>
      let pr := (b.drv a.drive).profile
      if !withinProfile pr a.cyl.val a.head.val a.sector.val then b.deny .range
      else if (b.ts.entry a).any (·.isDiverted) then b.deny .denied
      else
        match b.ts.freeKeepSlot with
        | none => b.deny .noRoom
        | some slot =>
          let img := buildImage a (buildVolume pr) (readWordList p 128 5)
          (b.setKeep slot .held).request (.storeSector a) slot (slotWrites slot img fullValues)

/-- PATCH_WORD handled: the read of the entry's image cells is requested (R139). -/
def Board.patchWord (b : Board) (p : List Byte) : Board :=
  if b.ts.init.isSome then b.deny .notReady
  else
    match readAddr p 0 with
    | none => b.deny .range
    | some a =>
      if 127 < u8 p 5 then b.deny .range
      else
        match b.ts.entry a with
        | none => b.deny .notFound
        | some e =>
          if e.damaged || e.kind = .diverted then b.deny .denied
          else
            b.request (.patch a (u8 p 5) (BitVec.ofNat 16 (u16 p 6))) e.slot
              (slotReads e.slot Config.imageCells)

/-- RELEASE_SECTOR handled (R140). -/
def Board.releaseSector (b : Board) (p : List Byte) : Board :=
  if b.ts.init.isSome then b.deny .notReady
  else
    match readAddr p 0, readMark (u8 p 5) with
    | some a, some force =>
      match b.ts.entry a with
      | none => b.deny .notFound
      | some e =>
        if (b.trackJob a.track).any (·.kind = .relay) then b.deny .conflict
        else if e.isDiverted && !force then b.deny .denied
        else (b.releaseEntry a).ok []
    | _, _ => b.deny .range

/-- CLEAR_STORE_LOG handled (R145). -/
def Board.clearStoreLog (b : Board) (_ : List Byte) : Board :=
  ({ b with sk := { b.sk with log := [] } } : Board).ok [byteOf b.sk.log.length]

/-- FILE_JOB (R91, R92). -/
def execFileJob (s : State) : Host.Outcome State Fault Refusal := handleRequest s 0x0A Board.fileJob

/-- CANCEL_JOB (R110). -/
def execCancelJob (s : State) : Host.Outcome State Fault Refusal := handleRequest s 0x0B Board.cancelJob

/-- DROP_SUSPECT (R101). -/
def execDropSuspect (s : State) : Host.Outcome State Fault Refusal := handleRequest s 0x0F Board.dropSuspect

/-- FETCH_SECTOR (R136). -/
def execFetchSector (s : State) : Host.Outcome State Fault Refusal := handleRequest s 0x11 Board.fetchSector

/-- FETCH_CAPTURE (R137). -/
def execFetchCapture (s : State) : Host.Outcome State Fault Refusal :=
  handleRequest s 0x12 Board.fetchCapture

/-- STORE_SECTOR (R138). -/
def execStoreSector (s : State) : Host.Outcome State Fault Refusal := handleRequest s 0x13 Board.storeSector

/-- PATCH_WORD (R139). -/
def execPatchWord (s : State) : Host.Outcome State Fault Refusal := handleRequest s 0x14 Board.patchWord

/-- RELEASE_SECTOR (R140). -/
def execReleaseSector (s : State) : Host.Outcome State Fault Refusal :=
  handleRequest s 0x15 Board.releaseSector

/-- CLEAR_STORE_LOG (R145). -/
def execClearStoreLog (s : State) : Host.Outcome State Fault Refusal :=
  handleRequest s 0x17 Board.clearStoreLog

/-- UNKNOWN_REQUEST (R165): a kind that names no request is answered BAD_REQUEST. -/
def execUnknownRequest (s : State) : Host.Outcome State Fault Refusal :=
  onLink s fun b l =>
    match l.inHand with
    | some r => if (requestLength r.kind r.payload).isNone then (b.deny .badRequest, l) else (b, l)
    | none => (b, l)

end Sys2Proof.Machine
end

