-- ==== Sys2Proof/Machine/StoreErrors.lean ====
section
/-! DEFINITION. Store errors: the error log (R151), what a double error does to a slot by its role (R135), and the
STORE notice (R152). -/

namespace Sys2Proof.Machine

/-- The owner of a slot in an error log entry (R129). -/
def Board.slotOwner (b : Board) (slot : Nat) : SlotOwner :=
  if slot < Config.keepSlots then
    if (b.ts.keepState slot).isSome then .keep else .free
  else if b.ts.pool.contains slot then .capture else .free

/-- The list without its first element that satisfies a test. -/
def dropFirst {α : Type} (p : α → Bool) : List α → List α
  | [] => []
  | x :: xs => if p x then xs else x :: dropFirst p xs

/-- The error log with a new entry placed (R151). -/
def logInsert (log : List LogEntry) (e : LogEntry) : List LogEntry :=
  if log.length < 16 then log ++ [e]
  else if log.any (·.kind = .single) then dropFirst (·.kind = .single) log ++ [e]
  else if e.kind = .single then log
  else log.drop 1 ++ [e]

/-- An error logged (R151). -/
def Board.logError (b : Board) (e : LogEntry) : Board :=
  { b with sk := { b.sk with log := logInsert b.sk.log e } }

/-- The log entry of an error found now (R129, R151). -/
def Board.errorEntry (b : Board) (kind : ErrorKind) (slot cell syndrome : Nat) (finder : Finder) : LogEntry :=
  { kind := kind, slot := slot, cell := cell, syndrome := syndrome, finder := finder,
    owner := b.slotOwner slot, time := b.now, epoch := b.ts.epoch }

/-- What a slot holds (R135). Jobs are named by serial. -/
inductive Role where
  | entry (e : KeepEntry)
  | best (serial sector : Nat)
  | capture (serial sector : Nat)
  | image (serial sector : Nat)
  | other
  deriving DecidableEq, Repr

/-- The first sector record of a list of jobs that satisfies a test, with its job. -/
def findSector (p : SalvageSector → Bool) : List Job → Option (Nat × Nat)
  | [] => none
  | j :: js =>
    match j.sectors.find? p with
    | some r => some (j.serial, r.sector)
    | none => findSector p js

/-- The RELAY sector whose PREPARE image stands in a slot, with its job. -/
def findImage (slot : Nat) : List Job → Option (Nat × Nat)
  | [] => none
  | j :: js =>
    match j.relay.find? fun r => r.image.any (·.slot = slot) with
    | some r => some (j.serial, r.sector)
    | none => findImage slot js

/-- The role of a slot at this moment (R135). The slot of a PREPARE image that a directory copy still reads after its
RELAY has finished has none (log entry 75). -/
def Board.roleOf (b : Board) (slot : Nat) : Role :=
  match b.ts.entryOfSlot slot with
  | some e => .entry e
  | none =>
    match findSector (fun r => r.slot = some slot && r.best.isSome) b.re.jobs with
    | some (s, k) => .best s k
    | none =>
      match findSector (fun r => r.caps.any fun c => c.slot = slot && c.held) b.re.jobs with
      | some (s, k) => .capture s k
      | none =>
        match findImage slot b.re.jobs with
        | some (s, k) => .image s k
        | none => .other

/-- The effect a role gives, as the STORE notice names it (R152). -/
def Board.roleEffect (b : Board) : Role → StoreEffect
  | .entry e => .entryDamaged e
  | .best s k => .bestDropped (b.idOf s) k
  | .capture s k => .captureDiscarded (b.idOf s) k
  | .image s k => .prepareDiscarded (b.idOf s) k
  | .other => .none

/-- What a double error does to a slot's contents by its role (R135). -/
def Board.treat (b : Board) (slot : Nat) : Role → Board
  | .entry e => (b.damageEntry e.addr).report e.addr.track (sectorSet [e.addr.sector.val]) .store
  | .best s k => b.modJob s fun j => j.modSector k fun r => { r with best := none }
  | .capture s k =>
    (((b.modJob s fun j => j.modSector k fun r =>
      { r with caps := r.caps.filter fun c => !(c.slot = slot && c.held) }).freePool slot).leaveSnapshot slot)
  | .image s k =>
    ((b.modJob s fun j => j.modRelay k fun r => { r with image := none }).disown s slot).freePool slot
  | .other => b

/-- A spoiled operation's slot treated by its role at the completion (R150): no second log entry or
notice. -/
def Board.treatSpoiled (b : Board) (op : StoreOp) : Board :=
  if op.spoiled then b.treat op.slot (b.roleOf op.slot) else b

/-- The code of an operation in a SPOILED notice, in the order of R150. -/
def OpKind.spoiledCode : OpKind → Option Nat
  | .capture .. => some 0
  | .delivery => some 1
  | .commit _ => some 2
  | .storeSector _ => some 3
  | .patch .. => some 4
  | .copy .. => some 5
  | .fill _ | .writeFill .. | .solveRead | .fetchSector _ | .fetchCapture .. => none

/-- The finder a reading operation names (R129). -/
def OpKind.finder : OpKind → Finder
  | .fill _ => .fill
  | .solveRead => .solve
  | .fetchSector _ | .fetchCapture .. => .fetch
  | .patch .. => .patch
  | .writeFill .. | .copy .. | .commit _ | .capture .. | .delivery | .storeSector _ => .relay

end Sys2Proof.Machine
end

