-- ==== Sys2Proof/Machine/StoreEnds.lean ====
section
/-! DEFINITION. The ends of the store's operations: what each does once its last cell access has been made (R27,
R40, R65, R99, R124, R136..R141). An operation that has accesses left has no end. -/

namespace Sys2Proof.Machine

/-- A fill that failed: the buffer is INVALID and a READ waiting on it is relayed and checked (R27, R30). -/
def Board.fillFailed (b : Board) (d : DriveNo) : Board :=
  if (b.drv d).lp.waitsOnBuffer then (b.voidBuffer d).makeRelay d else b.voidBuffer d

/-- The check of R27 on a filled image. -/
def emitCheck (a : Addr) (img : List Word) : Bool :=
  let h := imageHeader img
  h.cyl = a.cyl.val && h.head = a.head.val && h.format = 0 && h.sector = a.sector.val && soundImage img

/-- The end of an emit-buffer fill (R24, R27). -/
def Board.fillDone (b : Board) (d : DriveNo) : Board :=
  match b.ts.doneOp (.fill d) with
  | none => b
  | some op =>
    let b1 := b.abandonFill d
    let a := (b.drv d).lp.buf.addr
    let img := unpackWords op.got
    if emitCheck a img then
      b1.modLp d fun lp => { lp with buf := { state := .valid, addr := a, image := img } }
    else
      let b2 := b1.damageEntry a
      let b3 := if (b2.drv d).lp.buf.state = .filling then b2.fillFailed d else b2
      b3.report a.track (sectorSet [a.sector.val]) .store

/-- The held capture a buffer's image becomes in a pool slot (R98). -/
def CaptureBuffer.capture (x : CaptureBuffer) (slot : Nat) : Capture :=
  { slot := slot, held := true, lock := false, tag := x.tag, passNo := x.passNo, shift := x.shift,
    offset := x.offset, total := x.total, time := x.time }

/-- A SALVAGE capture whose write has completed: held at the end of its set, and its sector queued for a
solve (R99, R114, R150). -/
def Board.salvageCapture (b : Board) (j : Job) (k : Nat) (op : StoreOp) (c : Capture) : Board :=
  match j.sectorRec k with
  | none => b.settleCheck j.serial
  | some r =>
    if r.caps.any fun x => x.slot = op.slot && !x.held then
      let b1 := b.modJob j.serial fun j => j.modSector k fun r =>
        { r with caps := (r.caps.filter fun x => !(x.slot = op.slot && !x.held)) ++ [c] }
      let b2 :=
        if op.spoiled then b1.treatSpoiled op
        else if r.status.unresolved then b1.joinQueue j.serial k
        else b1
      b2.settleCheck j.serial
    else b.settleCheck j.serial

/-- A PREPARE image whose write has completed, and the write-buffer fill of the job served that waited for it
(R105, R106, R141, R150). An image discarded during its write stays so. The fill chooses its source as the
directory stands now (log entry 52). -/
def Board.prepareCapture (b : Board) (j : Job) (k : Nat) (op : StoreOp) (c : Capture) : Board :=
  let b2 :=
    if (j.relayRec k).any fun r => r.image = some { c with held := false } then
      (b.modJob j.serial fun j => j.modRelay k fun r => { r with image := some c }).treatSpoiled op
    else b
  let da := (b2.drv j.drive).da
  if da.wbuf = .waiting k && da.served.any (·.serial = j.serial) then b2.startWriteFill j.drive j.serial k
  else b2

/-- The end of a capture write (R65, R99): the slot of a job no longer live is freed, unless it was freed before
with the image's discard (R135). -/
def Board.captureDone (b : Board) (d : DriveNo) (i : Fin 2) : Board :=
  match b.ts.doneOp (.capture d i) with
  | none => b
  | some op =>
    let x := (b.drv d).rc.buf i
    let b1 := (b.dropOps fun op => op.kind = .capture d i).freeBuf d i
    match b1.job x.who.job with
    | none => if x.who.slot = some op.slot then b1.freePool op.slot else b1
    | some j =>
      match j.kind with
      | .relay => b1.prepareCapture j x.who.sector op (x.capture op.slot)
      | .salvage | .survey => b1.salvageCapture j x.who.sector op (x.capture op.slot)

/-- The change a diversion's commit makes to the directory and to the emit buffer (R21, R40). -/
def Board.commitEntry (b : Board) (d : DriveNo) (dv : Diversion) : Board :=
  (((b.dropOps fun op => op.kind = .commit d).modLp d fun lp =>
      { lp with diversion := none }).createEntry dv.target dv.slot .diverted).modLp d fun lp =>
    { lp with buf := if dv.cleared then .empty
                     else { state := .valid, addr := dv.target, image := dv.image } }

/-- A commit brought to its end by a RESTART: its change to the directory is made, and nothing else follows, since
the jobs and the live path are emptied by the same reset (R144, R150). -/
def Board.commitReset (b : Board) (d : DriveNo) : Board :=
  match b.ts.doneOp (.commit d), (b.drv d).lp.diversion with
  | some op, some dv => (b.commitEntry d dv).treatSpoiled op
  | _, _ => b

/-- The end of a diversion's commit (R40, R21). -/
def Board.commitDone (b : Board) (d : DriveNo) : Board :=
  match b.ts.doneOp (.commit d), (b.drv d).lp.diversion with
  | some op, some dv =>
    let b4 := (((b.commitEntry d dv).handOn dv.target).treatSpoiled op).examine
    if (b.drv d).lp.cmd.phase = .transfer ∧ (b.drv d).lp.cmd.course = .divert then
      (b4.modLp d fun lp => { lp with cmd := .idle }).liveEnded d
    else b4
  | _, _ => b

/-- The end of a delivery write (R124, R150). -/
def Board.deliveryDone (b : Board) : Board :=
  match b.ts.doneOp .delivery, b.su.flight with
  | some op, some f =>
    match f.phase with
    | .reading => b
    | .delivering x =>
      let b1 := (b.dropOps fun op => op.kind = .delivery).examine
      if f.discard || f.superseded then b1.closeSolve f
      else
        match b1.job f.job with
        | none => b1.closeSolve f
        | some j =>
          match j.sectorRec f.sector with
          | none => b1.closeSolve f
          | some r => (((b1.deliver f j r (.graded x) true).treatSpoiled op).examine).closeSolve f
  | _, _ => b

/-- The end of a RELAY write-buffer fill: the image is built by R8 (R106, R141). -/
def Board.writeFillDone (b : Board) (d : DriveNo) : Board :=
  match b.ts.ops.find? fun op => op.todo.isEmpty && match op.kind with
    | .writeFill d' _ _ => d' = d
    | _ => false with
  | none => b
  | some op =>
    match op.kind, b.servedJob d with
    | .writeFill _ k fromImage, some j =>
      let img := buildImage (j.track.addr k) (buildVolume (b.drv d).profile) (dataWords (unpackWords op.got))
      (b.dropOps fun x => x.kind = op.kind).modDa d fun da => { da with wbuf := .ready k fromImage img }
    | _, _ => b.dropOps fun x => x.kind = op.kind

/-- The end of a directory copy: the PREPARE image's slot is freed (R141, R150). -/
def Board.copyDone (b : Board) (slot : Nat) : Board :=
  match b.ts.ops.find? fun op => op.todo.isEmpty && op.slot = slot && match op.kind with
    | .copy _ _ => true
    | _ => false with
  | none => b
  | some op =>
    match op.kind with
    | .copy _ source =>
      ((b.dropOps fun x => x.kind = op.kind && x.slot = slot).freePool source).treatSpoiled op
    | _ => b

/-! ### Link transfers (R136..R139) -/

/-- The cell report of a fetch (R171). -/
def StoreOp.report (op : StoreOp) : List Byte := op.syn.map byteOf

/-- The words, per-word values, cell report and read time of a fetch (R171). -/
def StoreOp.fetchBytes (op : StoreOp) : List Byte :=
  wordsBytes (unpackWords (op.got.take Config.imageCells)) ++
    (unpackValues (op.got.drop Config.imageCells)).map byteOf ++ op.report ++ timeBytes op.lastAt

/-- The end of a FETCH_SECTOR (R136). -/
def Board.fetchSectorDone (b : Board) : Board :=
  match b.ts.ops.find? fun op => op.todo.isEmpty && match op.kind with
    | .fetchSector _ => true
    | _ => false with
  | none => b
  | some op =>
    match op.kind with
    | .fetchSector a =>
      let b1 := b.dropOps fun x => x.kind = op.kind
      match b1.ts.entry a with
      | none => b1.deny .notFound
      | some e =>
        if e.slot ≠ op.slot then b1.deny .notFound
        else if op.double then b1.reply .damaged false e.bytes
        else
          (b1.modEntry a fun e => { e with exported := true }).reply .ok false (e.bytes ++ op.fetchBytes)
    | _ => b

/-- The end of a FETCH_CAPTURE (R137). -/
def Board.fetchCaptureDone (b : Board) : Board :=
  match b.ts.ops.find? fun op => op.todo.isEmpty && match op.kind with
    | .fetchCapture .. => true
    | _ => false with
  | none => b
  | some op =>
    match op.kind with
    | .fetchCapture _ _ c =>
      let b1 := b.dropOps fun x => x.kind = op.kind
      if op.double then b1.deny .damaged else b1.reply .ok false (c.bytes ++ op.fetchBytes)
    | _ => b

/-- The end of a STORE_SECTOR (R138, R150). -/
def Board.storeSectorDone (b : Board) : Board :=
  match b.ts.ops.find? fun op => op.todo.isEmpty && match op.kind with
    | .storeSector _ => true
    | _ => false with
  | none => b
  | some op =>
    match op.kind with
    | .storeSector a =>
      let b1 := b.dropOps fun x => x.kind = op.kind
      if (b1.ts.entry a).any (·.isDiverted) then (b1.letGo op.slot).deny .denied
      else
        let b2 := b1.createEntry a op.slot .placed
        let record := ((b2.ts.entry a).map (·.bytes)).getD []
        ((b2.reply .ok false record).handOn a).treatSpoiled op
    | _ => b

/-- The end of a PATCH_WORD (R139, R150). -/
def Board.patchDone (b : Board) : Board :=
  match b.ts.ops.find? fun op => op.todo.isEmpty && match op.kind with
    | .patch .. => true
    | _ => false with
  | none => b
  | some op =>
    match op.kind with
    | .patch a _ _ =>
      let b1 := b.dropOps fun x => x.kind = op.kind
      if op.double then b1.deny .damaged
      else
        match b1.ts.entry a with
        | none => b1.deny .notFound
        | some e =>
          if e.slot ≠ op.slot then b1.deny .notFound
          else if e.damaged then b1.deny .damaged
          else
            let b2 := (b1.modEntry a fun e =>
              { e with kind := .placed, time := b.now, epoch := b.ts.epoch, exported := false }).entryChanged a
            let check := (unpackWords op.got).getD 130 0
            ((b2.reply .ok false (bytesOf 2 check.toNat)).handOn a).treatSpoiled op
    | _ => b

end Sys2Proof.Machine
end

