-- ==== Sys2Proof/Machine/StoreGrant.lean ====
section
/-! DEFINITION. The store arbiter: who is granted the next access, and what one access does (R129..R131, R135, R139,
R141..R143, R149). -/

namespace Sys2Proof.Machine

/-- The priority of an operation's accesses (R130). -/
def OpKind.priority : OpKind → Nat
  | .fill _ | .commit _ | .writeFill .. => 2
  | .capture .. => 3
  | .solveRead | .delivery => 4
  | .fetchSector _ | .fetchCapture .. | .storeSector _ | .patch .. | .copy .. => 5

/-- Whether two operations hold a slot in common (R131). -/
def StoreOp.clashes (x y : StoreOp) : Bool :=
  x.holds y.slot || match y.kind with
    | .copy _ source => x.holds source
    | _ => false

/-- The operations with an access waiting and not blocked by an operation requested earlier, with their
places in the list (R131). -/
def grantable : Nat → List StoreOp → List StoreOp → List (Nat × StoreOp)
  | _, _, [] => []
  | n, before, op :: rest =>
    let more := grantable (n + 1) (before ++ [op]) rest
    if !op.todo.isEmpty && !before.any (·.clashes op) then (n, op) :: more else more

/-- What the store arbiter grants among priorities 2 to 5 (R130): an operation's access, or a write of the
initialisation. -/
inductive Grantee where
  | op (n : Nat) (op : StoreOp)
  | init (cell : Nat)
  deriving DecidableEq, Repr

/-- The operations of the best priority waiting, all requested at the moment of the earliest of them, and
the one picked among those (R130). -/
def pickOp (l : List (Nat × StoreOp)) (pick : Nat) : Option (Nat × StoreOp) :=
  let best := l.foldl (fun p x => min p x.2.kind.priority) 5
  match l.filter fun x => x.2.kind.priority = best with
  | [] => none
  | x :: xs =>
    let ties := x :: xs.filter fun y => y.2.at_ = x.2.at_
    some (ties.getD pick x)

/-- The access waiting at priorities 2 to 5 that goes first, if any (R130). The initialisation waits at
priority 5 from the reset on, and no other operation of priority 5 exists while it runs (R143). -/
def Store.grantee (ts : Store) (pick : Nat) : Option Grantee :=
  match pickOp (grantable 0 [] ts.ops) pick, ts.init with
  | some (n, op), some a =>
    if op.kind.priority < 5 ∨ Config.storeCells ≤ a then some (.op n op) else some (.init a)
  | some (n, op), none => some (.op n op)
  | none, some a => if a < Config.storeCells then some (.init a) else none
  | none, none => none

/-- Whether an operation has made an access. -/
def StoreOp.begun (op : StoreOp) : Bool := !op.got.isEmpty || !op.wrote.isEmpty

/-- Whether the arbiter may grant what waits at priority 6 or 7 (R130): no initialisation write waits, and no
operation that has yet to begin; the next access of one that has begun need not be waiting (log entry 46). -/
def Store.leavesRoom (ts : Store) : Bool :=
  (match ts.init with
    | some a => Decidable.decide (Config.storeCells ≤ a)
    | none => true) &&
    (grantable 0 [] ts.ops).all (·.2.begun)

/-- The board with the operation at a place changed. -/
def Board.modOpAt (b : Board) (n : Nat) (f : StoreOp → StoreOp) : Board :=
  { b with ts := { b.ts with ops := b.ts.ops.modify n f } }

/-- The image a patch writes (R8, R139). -/
def Board.patchImage (b : Board) (a : Addr) (n : Nat) (value : Word) (got : List (BitVec 32)) : List Word :=
  buildImage a (buildVolume (b.drv a.drive).profile) ((dataWords (unpackWords got)).set n value)

/-- The writes of a patch once its image cells are read (R139): the cells that differ, always those of the
patched word and the check word, and the quality cells where the entry was RECOVERED, as the directory has it at
that moment (log entry 44). -/
def Board.patchWrites (b : Board) (slot : Nat) (a : Addr) (n : Nat) (img : List Word)
    (got : List (BitVec 32)) : List Access :=
  let cells := packWords img
  let changed := (List.range Config.imageCells).filter fun c =>
    c = (n + 2) / 2 || c = 65 || cells.getD c 0 ≠ got.getD c 0
  let recovered := (b.ts.entry a).any fun e => e.slot = slot && match e.kind with
    | .recovered _ => true
    | .diverted | .placed => false
  changed.map (fun c => .write slot c (cells.getD c 0)) ++
    if recovered then (packValues fullValues).zipIdx.map fun (w, c) => .write slot (c + 66) w else []

/-- What follows the last read of an operation that goes on to write (R139, R141). -/
def Board.afterReads (b : Board) (n : Nat) (op : StoreOp) : Board :=
  match op.kind with
  | .patch a k v =>
    if op.wrote.isEmpty && op.todo.isEmpty && !op.double then
      let img := b.patchImage a k v op.got
      b.modOpAt n fun op =>
        { op with todo := b.patchWrites op.slot a k img op.got, got := packWords img }
    else b
  | .copy a _ =>
    if op.wrote.isEmpty && op.todo.isEmpty && !op.double then
      let img := buildImage a (buildVolume (b.drv a.drive).profile) (dataWords (unpackWords op.got))
      b.modOpAt n fun op => { op with todo := slotWrites op.slot img fullValues }
    else b
  | _ => b

/-- The reader's own work on a double error (R30, R115, R136..R141). The operation at place n has taken the
read; the slot has been treated by its role. A directory copy's remaining reads of its source are withdrawn with
it, and the copy's slot is left as it stands (log entry 53); a patch reads on to its last image cell (log entry
63). -/
def Board.readerDouble (b : Board) (op : StoreOp) : Board :=
  match op.kind with
  | .fill d => if (b.ts.op (.fill d)).isSome then b.fillFailed d else b
  | .writeFill d _ _ =>
    match (b.drv d).da.served with
    | some r => (b.dropOps fun x => x.kind = op.kind).fatalWrite d r.serial
    | none => b.dropOps fun x => x.kind = op.kind
  | .copy a _ =>
    let b1 : Board := { b with ts := { b.ts with ops := b.ts.ops.map fun x =>
      if x.kind = op.kind && x.slot = op.slot then { x with todo := [] } else x } }
    match b1.ts.entry a with
    | some e => if e.slot = op.slot then b1.treat op.slot (.entry e) else b1
    | none => b1
  | .solveRead => b.leaveSnapshot op.slot
  | .fetchSector _ | .fetchCapture .. | .patch .. | .commit _ | .capture .. | .delivery
  | .storeSector _ => b

/-- The effect a STORE notice names for an error an operation's read met: that of the slot's role, or of a
copy's new entry (R141, R152). -/
def Board.readEffect (b : Board) (op : StoreOp) (slot : Nat) : StoreEffect :=
  match op.kind with
  | .copy a _ =>
    match b.ts.entry a with
    | some e => if e.slot = op.slot then .entryDamaged e else b.roleEffect (b.roleOf slot)
    | none => b.roleEffect (b.roleOf slot)
  | _ => b.roleEffect (b.roleOf slot)

/-- A read access of an operation, by the class of the cell read (R129, R135). -/
def Board.readAccess (b : Board) (n : Nat) (op : StoreOp) (slot cell : Nat) (c : CellRead) : Board :=
  let took (b : Board) (w : BitVec 32) (syn : Nat) (double : Bool) : Board :=
    b.modOpAt n fun op =>
      { op with todo := op.todo.drop 1, got := op.got ++ [w], syn := op.syn ++ [syn],
                double := op.double || double, lastAt := b.now }
  let next (b : Board) : Board := match b.ts.ops[n]? with
    | some op => b.afterReads n op
    | none => b
  match c with
  | .clean w => next (took b w 0 false)
  | .single w syn => (next (took b w syn false)).logError (b.errorEntry .single slot cell syn op.kind.finder)
  | .double syn =>
    let e := b.errorEntry .double slot cell syn op.kind.finder
    let role := b.roleOf slot
    let b1 := ((took b 0 syn true).logError e).note none (.store e (b.readEffect op slot))
    (b1.treat slot role).readerDouble op

/-- A patch about to be granted its first cell consults the directory again: the answer that withdraws it,
if any (R139). -/
def Board.patchRecheck (b : Board) (op : StoreOp) : Option Status :=
  match op.kind with
  | .patch a _ _ =>
    if op.syn.isEmpty then
      match b.ts.entry a with
      | none => some .notFound
      | some e => if e.slot ≠ op.slot then some .notFound
                  else if e.damaged || e.kind = .diverted then some .denied else none
    else none
  | _ => none

/-- One access granted to the operation at place n (R130), wrong bits having come into the cell since its
last access; an access beyond the store faults (R128). -/
def grantOp (b : Board) (m : Dram) (n : Nat) (op : StoreOp) (wrong : CellBits) :
    Except Fault (Board × Dram) :=
  match b.patchRecheck op with
  | some st => .ok ((b.dropOps fun x => x.kind = op.kind).deny st, m)
  | none =>
    match op.todo with
    | [] => .ok (b, m)
    | .read slot cell :: _ =>
      let a := cellAddress slot cell
      if a < Config.storeCells then
        let c := disturb (dramGet m a) wrong
        .ok (b.readAccess n op slot cell (classify c), dramPut m a c)
      else .error .noSuchCell
    | .write slot cell w :: _ =>
      let a := cellAddress slot cell
      if a < Config.storeCells then
        let b1 := b.modOpAt n fun op =>
          { op with todo := op.todo.drop 1, wrote := op.wrote ++ [cell], lastAt := b.now }
        let b2 : Board := if slot < Config.keepSlots then
            { b1 with ts := { b1.ts with writeRec := insertNat slot b1.ts.writeRec } }
          else b1
        .ok (b2, dramPut m a (writtenCell w))
      else .error .noSuchCell

/-- One access granted by the store arbiter at priorities 2 to 5 (R130, R143). -/
def grantAccess (b : Board) (m : Dram) (g : Grantee) (wrong : CellBits) : Except Fault (Board × Dram) :=
  match g with
  | .op n op => grantOp b m n op wrong
  | .init a =>
    .ok ({ b with ts := { b.ts with init := some (a + 1) } }, dramPut m a (writtenCell 0))

/-- The remaining accesses of the operation of a kind, made before a RESTART (R144). No new wrong bit comes into the
cells they read (log entry 45). -/
def drainOp (kind : OpKind) : Nat → Board → Dram → Board × Dram
  | 0, b, m => (b, m)
  | fuel + 1, b, m =>
    match b.ts.ops.findIdx? (·.kind = kind), b.ts.op kind with
    | some n, some op =>
      match grantOp b m n op 0 with
      | .ok (b1, m1) => drainOp kind fuel b1 m1
      | .error _ => (b, m)
    | _, _ => (b, m)

end Sys2Proof.Machine
end

