-- ==== Sys2Proof/Machine/StoreEvents.lean ====
section
/-! DEFINITION. The store's commands: STORE_ACCESS_GRANT, the ends of operations, the solve unit's commands and store
upkeep (chapters 7, 8 and 9). A command whose moment has not come changes nothing on the board (log entry 3). -/

namespace Sys2Proof.Machine

/-- A step that changes the board and the store's cells, or faults. -/
def onStore (s : State) (f : Board → Dram → Except Fault (Board × Dram)) :
    Host.Outcome State Fault Refusal :=
  match f s.board s.dram with
  | .ok (b, m) => .next (settle s b s.link m)
  | .error e => .fault e

/-- What STORE_ACCESS_GRANT does (R130): with three or more bursts pending only a refresh is granted. -/
def storeGrant (b : Board) (m : Dram) (pick : Nat) (wrong : CellBits) : Except Fault (Board × Dram) :=
  if 3 ≤ b.sk.pending then .ok (b, m)
  else
    match b.ts.grantee pick with
    | some g => grantAccess b m g wrong
    | none => .ok (b, m)

/-- STORE_ACCESS_GRANT (R129..R131, R135). -/
def execStoreAccessGrant (pick : Nat) (wrong : CellBits) (s : State) : Host.Outcome State Fault Refusal :=
  onStore s fun b m => storeGrant b m pick wrong

/-- EMIT_FILL_COMPLETE (R24, R27). -/
def execEmitFillComplete (d : DriveNo) (s : State) : Host.Outcome State Fault Refusal :=
  onBoard s fun b => b.fillDone d

/-- CAPTURE_WRITE_COMPLETE (R65, R99). -/
def execCaptureWriteComplete (d : DriveNo) (buffer : Fin 2) (s : State) : Host.Outcome State Fault Refusal :=
  onBoard s fun b => b.captureDone d buffer

/-- DIVERSION_COMMIT_COMPLETE (R40). -/
def execDiversionCommitComplete (d : DriveNo) (s : State) : Host.Outcome State Fault Refusal :=
  onBoard s fun b => b.commitDone d

/-- WRITE_BUFFER_FILL_END (R141). -/
def execWriteBufferFillEnd (d : DriveNo) (s : State) : Host.Outcome State Fault Refusal :=
  onBoard s fun b => b.writeFillDone d

/-- DIRECTORY_COPY_END (R141). -/
def execDirectoryCopyEnd (slot : Nat) (s : State) : Host.Outcome State Fault Refusal :=
  onBoard s fun b => b.copyDone slot

/-- FETCH_SECTOR_READ_END (R136). -/
def execFetchSectorReadEnd (s : State) : Host.Outcome State Fault Refusal :=
  onBoard s Board.fetchSectorDone

/-- FETCH_CAPTURE_READ_END (R137). -/
def execFetchCaptureReadEnd (s : State) : Host.Outcome State Fault Refusal :=
  onBoard s Board.fetchCaptureDone

/-- STORE_SECTOR_WRITE_END (R138). -/
def execStoreSectorWriteEnd (s : State) : Host.Outcome State Fault Refusal :=
  onBoard s Board.storeSectorDone

/-- PATCH_WRITE_END (R139). -/
def execPatchWriteEnd (s : State) : Host.Outcome State Fault Refusal :=
  onBoard s Board.patchDone

/-- SOLVE_START (R115). -/
def execSolveStart (s : State) : Host.Outcome State Fault Refusal :=
  onBoard s Board.solveStart

/-- SNAPSHOT_READ_COMPLETE (R115..R121). -/
def execSnapshotReadComplete (slot : Nat) (s : State) : Host.Outcome State Fault Refusal :=
  onBoard s fun b => b.snapshotRead slot

/-- DELIVERY_WRITE_COMPLETE (R124). -/
def execDeliveryWriteComplete (s : State) : Host.Outcome State Fault Refusal :=
  onBoard s Board.deliveryDone

/-- The store becomes ready: the last cell of the initialisation has been written (R143). -/
def Board.storeReady (b : Board) : Board :=
  if b.ts.init = some Config.storeCells then
    { ({ b with ts := { b.ts with init := none } } : Board).note none
        (.storeReady b.ts.epoch b.ts.dir.length) with exam := true }
  else b

/-- STORE_INIT_COMPLETE (R143). -/
def execStoreInitComplete (s : State) : Host.Outcome State Fault Refusal :=
  onBoard s Board.storeReady

/-! ### Refresh and scrub (R146, R147, R149, R150) -/

/-- A refresh burst added to those pending, at most 15 (R146). -/
def Upkeep.addBurst (sk : Upkeep) : Upkeep := { sk with pending := min 15 (sk.pending + 1) }

/-- Whether a tick of the time base is due (R146). -/
def Board.tickDue (b : Board) : Bool := 16 ≤ b.since b.sk.tickTime

/-- Whether the next tick is a scrub tick (R147). -/
def Upkeep.scrubNext (sk : Upkeep) : Bool := sk.interval ≠ 0 && sk.interval ≤ sk.tickCount + 1

/-- A refresh tick that is not a scrub tick (R146, R147). -/
def Board.refreshTick (b : Board) : Board :=
  if b.tickDue && !b.sk.scrubNext then
    { b with sk := { b.sk.addBurst with
        tickTime := b.sk.tickTime + 16,
        tickCount := if b.sk.interval = 0 then 0 else b.sk.tickCount + 1 } }
  else b

/-- A scrub tick (R147). -/
def Board.scrubTick (b : Board) : Board :=
  if b.tickDue && b.sk.scrubNext then
    let sk := { b.sk with tickTime := b.sk.tickTime + 16, tickCount := 0 }
    if sk.waiting || b.ts.init.isSome then { b with sk := sk.addBurst }
    else { b with sk := { sk with waiting := true } }
  else b

/-- Whether the store arbiter may grant a refresh burst now (R130, R146). -/
def Board.burstDue (b : Board) : Bool :=
  3 ≤ b.sk.pending || (1 ≤ b.sk.pending && b.ts.leavesRoom)

/-- A refresh burst granted (R146). -/
def Board.refreshBurst (b : Board) : Board :=
  if b.burstDue then { b with sk := { b.sk with pending := b.sk.pending - 1 } } else b

/-- Whether the store arbiter may grant the scrub now (R130, R143, R147), between two accesses of an operation too
(R150). -/
def Board.scrubDue (b : Board) : Bool :=
  b.sk.waiting && b.sk.pending = 0 && b.ts.leavesRoom && b.ts.init.isNone

/-- The scrub's request done and its address moved on (R147). -/
def Board.scrubNextCell (b : Board) : Board :=
  { b with sk := { b.sk with
      waiting := false,
      address := if b.sk.address + 1 < Config.storeCells then b.sk.address + 1 else 0 } }

/-- Whether an operation that holds a slot has already written one of its cells (R150). -/
def StoreOp.hasWritten (op : StoreOp) (slot cell : Nat) : Bool := op.slot = slot && op.wrote.contains cell

/-- The operation a double error in a cell spoils, as a STORE notice names it (R150, R152). -/
def Store.spoils (ts : Store) (slot cell : Nat) : Option Nat :=
  (ts.ops.find? (·.hasWritten slot cell)).bind (·.kind.spoiledCode)

/-- A double error found by the scrub (R149, R150). -/
def Board.scrubDouble (b : Board) (slot cell syn : Nat) : Board :=
  let role := b.roleOf slot
  let effect := match role, b.ts.spoils slot cell with
    | .other, some code => StoreEffect.spoiled code
    | _, _ => b.roleEffect role
  let e := b.errorEntry .double slot cell syn .scrub
  let b1 := (b.logError e).note none (.store e effect)
  let mark (op : StoreOp) : StoreOp := { op with spoiled := op.spoiled || op.hasWritten slot cell }
  let b2 : Board := { b1 with ts := { b1.ts with ops := b1.ts.ops.map mark } }
  b2.treat slot role

/-- What a scrub access does (R149). -/
def scrubCell (b : Board) (m : Dram) (wrong : CellBits) : Except Fault (Board × Dram) :=
  let a := b.sk.address
  if ¬ b.scrubDue then .ok (b, m)
  else if Config.storeCells ≤ a then .error .noSuchCell
  else
    let slot := a / Config.slotCells
    let cell := a % Config.slotCells
    let c := disturb (dramGet m a) wrong
    match classify c with
    | .clean _ => .ok (b.scrubNextCell, dramPut m a c)
    | .single w syn =>
      .ok ((b.logError (b.errorEntry .single slot cell syn .scrub)).scrubNextCell,
        dramPut m a (writtenCell w))
    | .double syn => .ok ((b.scrubDouble slot cell syn).scrubNextCell, dramPut m a c)

/-- REFRESH_TICK (R146). -/
def execRefreshTick (s : State) : Host.Outcome State Fault Refusal := onBoard s Board.refreshTick

/-- SCRUB_TICK (R147). -/
def execScrubTick (s : State) : Host.Outcome State Fault Refusal := onBoard s Board.scrubTick

/-- REFRESH_BURST (R146). -/
def execRefreshBurst (s : State) : Host.Outcome State Fault Refusal := onBoard s Board.refreshBurst

/-- SCRUB_ACCESS (R149, R150). -/
def execScrubAccess (wrong : CellBits) (s : State) : Host.Outcome State Fault Refusal :=
  onStore s fun b m => scrubCell b m wrong

end Sys2Proof.Machine
end

