-- ==== Sys2Proof/Machine/Resets.lean ====
section
/-! DEFINITION. POWER_UP and the RESTART reset: the reset tables of every block (R9, R15, R18, R22, R24, R41, R53, R70,
R88, R90, R94, R101, R103, R113, R128, R132, R142..R145, R153, R162). -/

namespace Sys2Proof.Machine

/-- The line rate of the straps (R153). -/
def lineRate (first second : Bool) : Nat :=
  match first, second with
  | false, false => 19200
  | true, false => 57600
  | false, true => 115200
  | true, true => 460800

/-- The link after a reset, with its first notices (R153). -/
def Link.afterReset (rate : Nat) : Link :=
  { rate := rate, framer := .hunting, queue := [], hand := .fresh, dropReply := false, restart := .none,
    replies := [], tx := none, notices := [], lost := 0 }

/-- The keep slots after a reset: ENTRY for each directory entry (R128). -/
def Store.entrySlots (dir : List KeepEntry) : List (Nat × KeepState) :=
  dir.foldl (fun ks e => putKeep e.slot .entry ks) []

/-- The entry after the write record's check (R142). -/
def KeepEntry.checkRecord (rec : List Nat) (e : KeepEntry) : KeepEntry :=
  if rec.contains e.slot && !e.damaged then { e with damaged := true, exported := false } else e

/-- The epoch after a POWER-UP with good retention (R142). -/
def nextEpoch (n : Nat) : Nat := if 4294967295 ≤ n then 1 else n + 1

/-- The store after a POWER-UP (R142, R143). -/
def Store.powerUp (ts : Store) (retention : Bool) : Store :=
  if retention then
    let dir := ts.dir.map (KeepEntry.checkRecord ts.writeRec)
    { keep := Store.entrySlots dir, pool := [], dir := dir, epoch := nextEpoch ts.epoch, writeRec := [],
      ops := [], init := none }
  else
    { keep := [], pool := [], dir := [], epoch := 1, writeRec := [], ops := [], init := some 0 }

/-- The board after a POWER-UP, before any notice. -/
def Board.powerUp (b : Board) (retention strap1 strap2 : Bool) (ready : BitVec 4) : Board :=
  { now := 0, strap1 := strap1, strap2 := strap2, retention := retention,
    drives := ⟨.reset 0 (ready.getLsbD 0), .reset 0 (ready.getLsbD 1), .reset 0 (ready.getLsbD 2),
      .reset 0 (ready.getLsbD 3)⟩,
    re := .reset, su := .reset, ts := b.ts.powerUp retention, sk := .reset, filing := none, out := [],
    answer := none, exam := false, solveOver := false }

/-- The notices of a POWER-UP: START, and with good retention STORE_READY and the reports of the entries that
the write record names, in directory order (R142, R153; log entry 62). -/
def Board.powerNotices (b : Board) (retention : Bool) (named : List KeepEntry) : Board :=
  let b1 := b.note none (.start false (some retention) b.ts.epoch b.ts.dir.length b.ts.init.isSome)
  if retention then
    named.foldl (fun b e => b.addReport e.addr.track (sectorSet [e.addr.sector.val]) .store)
      (b1.note none (.storeReady b.ts.epoch b.ts.dir.length))
  else b1

/-- POWER_UP (R142, R143, R153). The DRAM's cells stand as the outage left them; without good retention the
initialisation writes every one before the store is ready. -/
def execPowerUp (retention strap1 strap2 : Bool) (ready : BitVec 4) (s : State) :
    Host.Outcome State Fault Refusal :=
  let named := s.board.ts.dir.filter fun e => s.board.ts.writeRec.contains e.slot
  let b := (s.board.powerUp retention strap1 strap2 ready).powerNotices retention named
  .next { board := { b with out := [], exam := false },
          link := b.out.foldl Link.joinNotice (.afterReset (lineRate strap1 strap2)),
          dram := s.dram, pending := s.pending }

/-! ### RESTART (R88, R144, R162) -/

/-- One commit or directory copy in progress brought to its end, with its change to the directory; any other operation
is left to be stopped (R144). Neither has more than 149 accesses. -/
def finishWrite (p : Board × Dram) (kind : OpKind) : Board × Dram :=
  match kind with
  | .commit d =>
    let (b, m) := drainOp kind 149 p.1 p.2
    (b.commitReset d, m)
  | .copy _ _ =>
    let (b, m) := drainOp kind 149 p.1 p.2
    (b.copyDone (((b.ts.op kind).map (·.slot)).getD 0), m)
  | _ => p

/-- The commits and directory copies in progress brought to their ends, in the order they were requested, each ended
before the next one's accesses, as one that holds a slot blocks the next (R131, R144). -/
def finishWrites (b : Board) (m : Dram) : Board × Dram := (b.ts.ops.map (·.kind)).foldl finishWrite (b, m)

/-- Whether a work is a movement at the drive. -/
def Work.moves : Work → Bool
  | .recal | .seek | .retryRecal | .restoreSeek | .restoreRecal | .leftover => true
  | .idle | .offsetOff | .offsetOn | .restoreOffset => false

/-- The arbiter after a RESTART (R70, R88): a movement of the engine in progress is left to end. -/
def Arbiter.restart (da : Arbiter) (now : Time) (ready seeking : Bool) : Arbiter :=
  let r := Arbiter.reset now ready
  match da.owner with
  | .enginePosition | .enginePass | .engineRestore =>
    { r with owner := .engineRestore, idleStart := none, offlineStart := none,
             work := if da.work.moves then .leftover else .idle, workAt := da.workAt }
  | .liveBusy | .taking =>
    if seeking then { r with owner := .liveBusy, idleStart := none, offlineStart := none } else r
  | .liveIdle | .offline => r

/-- A drive port after a RESTART (R9, R15, R41, R53, R70). A passed write under way is dropped with its gate, and
an entry made at its target meanwhile stays in the directory, which a RESTART keeps (R144, log entry 48). -/
def Drive.restart (x : Drive) (now : Time) : Drive :=
  { profile := .default, pins := x.pins, rt := .reset, rc := .reset,
    lp := { LivePath.reset with seeking := x.lp.seeking },
    da := x.da.restart now x.pins.ready x.lp.seeking }

/-- The restore a RESTART begins on a drive that the engine owned (R88). -/
def Board.restartRestore (b : Board) (d : DriveNo) : Board :=
  let da := (b.drv d).da
  if da.owner = .engineRestore ∧ da.work = .idle then b.restoreSteps d else b

/-- The store after a RESTART (R128, R144). -/
def Store.restart (ts : Store) : Store :=
  { ts with keep := Store.entrySlots ts.dir, pool := [], ops := [],
            writeRec := ts.writeRec.filter fun s => !ts.ops.any (·.writes s) }

/-- The upkeep record after a RESTART (R145). -/
def Upkeep.restart (sk : Upkeep) : Upkeep := { sk with tickCount := 0, interval := 128, waiting := false }

/-- The board after a RESTART. -/
def Board.restart (b : Board) : Board :=
  let ds := b.drives
  let b1 : Board :=
    { b with drives := ⟨ds.d0.restart b.now, ds.d1.restart b.now, ds.d2.restart b.now, ds.d3.restart b.now⟩,
             re := .reset, su := .reset, ts := b.ts.restart, sk := b.sk.restart, filing := none, out := [],
             answer := none, exam := false, solveOver := false }
  ([0, 1, 2, 3] : List DriveNo).foldl Board.restartRestore b1

/-- The START notice of a RESTART (R153). -/
def Board.restartNotice (b : Board) : Note :=
  { drive := none, time := b.now, body := .start true none b.ts.epoch b.ts.dir.length b.ts.init.isSome }

/-- RESTART_RESET (R88, R144, R162). -/
def execRestartReset (s : State) : Host.Outcome State Fault Refusal :=
  match s.link.restart with
  | .due =>
    let (b, m) := finishWrites s.board s.dram
    let b1 := b.restart
    .next { board := b1, link := (Link.afterReset s.link.rate).joinNotice b1.restartNotice, dram := m,
            pending := s.pending }
  | .none | .replying => .next s

end Sys2Proof.Machine
end

