-- ==== Sys2Proof/Machine/Settings.lean ====
section
/-! DEFINITION. The requests that set: SET_PROFILE, SET_SHARE, SET_LADDER, SET_SOLVE, SET_SCRUB (R10..R12, R22, R72,
R94, R95, R113, R148, R167, R168). -/

namespace Sys2Proof.Machine

/-- A change of profile or of substitution settings for the emit buffer (R11, R22): it is INVALID, an
abandoned fill's READ is relayed, and a READ to be emitted from a VALID buffer asks the directory again. An
absorption buffer is left as it is (R37). -/
def Board.resetBuffer (b : Board) (d : DriveNo) : Board :=
  let lp := (b.drv d).lp
  match lp.buf.state with
  | .absorbing => b
  | .invalid => b
  | .filling => if lp.waitsOnBuffer then (b.voidBuffer d).makeRelay d else b.voidBuffer d
  | .valid => if lp.waitsOnBuffer then b.askAgain d else b.voidBuffer d

/-- Whether a SET_PROFILE collides with live work (R10). -/
def Board.profileBusy (b : Board) (d : DriveNo) : Bool :=
  b.re.jobs.any (·.drive = d) ||
    match (b.drv d).da.owner with
    | .taking | .enginePosition | .enginePass | .engineRestore => true
    | .liveIdle | .liveBusy | .offline => false

/-- A taken SET_PROFILE's effects on the drive (R11, R12, R41). READY or OFFLINE is raised before what an expiry of the
watchdog raises (log entry 36). -/
def Board.changeProfile (b : Board) (d : DriveNo) (p : Profile) : Board :=
  let old := (b.drv d).profile
  let b1 := (b.modDrv d fun x => { x with profile := p }).modRt d fun rt =>
    { rt with position := rt.position % p.sectors, inBand := if p.period = old.period then rt.inBand else 0 }
  let b2 := b1.resetBuffer d
  let x := b2.drv d
  let b3 := b2.note (some d) (if x.pins.ready then .ready none else .offline x.da.owner none)
  let b4 := if p.period = old.period then b3 else b3.watchdog d
  { b4 with exam := true }

/-- SET_PROFILE handled (R10, R167). -/
def Board.setProfile (b : Board) (p : List Byte) : Board :=
  match readDrive p 0 with
  | none => b.deny .range
  | some d =>
    if b.profileBusy d then b.deny .conflict
    else
      match readProfile p with
      | none => b.deny .range
      | some (pr, adjusted) => (b.changeProfile d pr).reply .ok adjusted pr.bytes

/-- The share settings with a new mode recorded: in force at once, or pending (R72). -/
def Share.request (sh : Share) (owner : Owner) (m : ShareMode) : Share :=
  match owner with
  | .liveIdle | .offline | .engineRestore => { sh with mode := m, pending := none }
  | .liveBusy | .taking | .enginePosition | .enginePass => { sh with pending := some m }

/-- The waiting jobs of a drive whose wait exceeds the starve limit made PRESSING (R72, R74). -/
def Board.pressStarved (b : Board) (d : DriveNo) : Board :=
  { b with re := { b.re with jobs := b.re.jobs.map fun j =>
      if j.drive = d && b.starved j then { j with level := .pressing } else j } }

/-- The settings of a taken SET_SHARE recorded (R22, R72, R103). -/
def Board.recordShare (b : Board) (d : DriveNo) (r : ShareReq) : Board :=
  let lp := (b.drv d).lp
  let b1 := b.modLp d fun lp => { lp with sub := r.sub, grade := r.grade, divert := r.divert }
  let b2 := if lp.sub = r.sub ∧ lp.grade = r.grade then b1 else b1.resetBuffer d
  let b3 := b2.modDa d fun da =>
    { da with share := { (da.share.request da.owner r.mode) with
        hold := r.hold, grace := r.grace, starve := r.starve } }
  { b3 with re := { b3.re with auto := b3.re.auto.set d r.auto }, exam := true }

/-- The reply fields of SET_SHARE (R167, log entry 10). -/
def Board.shareBytes (b : Board) (d : DriveNo) : List Byte :=
  let x := b.drv d
  [markByte x.lp.sub, byteOf x.lp.grade.code, markByte x.lp.divert, markByte (b.re.auto.get d)] ++
    bytesOf 2 x.da.share.hold ++ bytesOf 2 x.da.share.grace ++ bytesOf 2 x.da.share.starve ++
    [byteOf x.da.share.mode.code] ++ optBytes 1 (x.da.share.pending.map fun m => [byteOf m.code])

/-- SET_SHARE handled (R22, R72, R103, R167): a timer whose new value is already exceeded expires at the
change. The reply shows the modes as the request records them, before such an expiry (log entry 78). -/
def Board.setShare (b : Board) (p : List Byte) : Board :=
  match readDrive p 0, readShare p with
  | some d, some (r, adjusted) =>
    let b1 := b.recordShare d r
    ((((b1.reply .ok adjusted (b1.shareBytes d)).pressStarved d).holdExpiry d).takeOrWait d)
  | _, _ => b.deny .range

/-- A live SALVAGE reached by a new ladder (R95). -/
def Board.reachLadder (b : Board) (serial : Nat) : Board :=
  match b.job serial with
  | none => b
  | some j =>
    if j.kind = .salvage ∧ j.state ≠ .active then
      let b1 := b.modJob serial fun j => j.normalise b.re.ladder
      match b1.job serial with
      | some j1 => if j1.state = .waiting ∧ !j1.needsPass then b1.restOrFinish serial else b1
      | none => b1
    else b

/-- SET_LADDER handled (R94, R95, R168). It reaches the jobs in the order of filing, each one's finish whole before
the next is reached (log entry 71). -/
def Board.setLadder (b : Board) (p : List Byte) : Board :=
  match readLadder p with
  | none => b.deny .range
  | some (l, adjusted) =>
    let b1 : Board := { b with re := { b.re with ladder := l } }
    (b1.re.jobs.map (·.serial)).foldl Board.reachLadder (b1.reply .ok adjusted (ladderBytes l))

/-- SET_SOLVE handled (R113, R168). -/
def Board.setSolve (b : Board) (p : List Byte) : Board :=
  let k := min 10 (u8 p 0)
  let t := clampTo 1 56 (u8 p 1)
  ({ b with su := { b.su with k := k, threshold := t } } : Board).reply .ok (k ≠ u8 p 0 || t ≠ u8 p 1)
    [byteOf k, byteOf t]

/-- SET_SCRUB handled (R148). -/
def Board.setScrub (b : Board) (p : List Byte) : Board :=
  let n := scrubInterval (u16 p 0)
  ({ b with sk := { b.sk with interval := n, tickCount := 0,
                              waiting := if n = 0 then false else b.sk.waiting } } : Board).reply .ok
    (n ≠ u16 p 0) (bytesOf 2 n)

/-- SET_PROFILE (R10..R12). -/
def execSetProfile (s : State) : Host.Outcome State Fault Refusal := handleRequest s 0x04 Board.setProfile

/-- SET_SOLVE (R113). -/
def execSetSolve (s : State) : Host.Outcome State Fault Refusal := handleRequest s 0x05 Board.setSolve

/-- SET_SHARE (R72, R167). -/
def execSetShare (s : State) : Host.Outcome State Fault Refusal := handleRequest s 0x07 Board.setShare

/-- SET_LADDER (R94, R95). -/
def execSetLadder (s : State) : Host.Outcome State Fault Refusal := handleRequest s 0x08 Board.setLadder

/-- SET_SCRUB (R148). -/
def execSetScrub (s : State) : Host.Outcome State Fault Refusal := handleRequest s 0x18 Board.setScrub

end Sys2Proof.Machine
end

