-- ==== Sys2Proof/Machine/Dispatch.lean ====
section
/-! DEFINITION. The meaning of each command, by constructor; the queue is left as it stands. -/

namespace Sys2Proof.Machine

def exec (i : Instr) (s : State) : Host.Outcome State Fault Refusal :=
  match i with
  | .powerUp retention strap1 strap2 ready => Sys2Proof.Machine.execPowerUp retention strap1 strap2 ready s
  | .storeInitComplete => Sys2Proof.Machine.execStoreInitComplete s
  | .restart => Sys2Proof.Machine.execRestart s
  | .restartReset => Sys2Proof.Machine.execRestartReset s
  | .busClear => Sys2Proof.Machine.execBusClear s
  | .lineBreak => Sys2Proof.Machine.execLineBreak s
  | .breakEnd => Sys2Proof.Machine.execBreakEnd s
  | .seek d cylinder => Sys2Proof.Machine.execSeek d cylinder s
  | .recalibrate d => Sys2Proof.Machine.execRecalibrate d s
  | .headSelect d head => Sys2Proof.Machine.execHeadSelect d head s
  | .read d sector => Sys2Proof.Machine.execRead d sector s
  | .write d sector => Sys2Proof.Machine.execWrite d sector s
  | .driveOnCylinder d => Sys2Proof.Machine.execDriveOnCylinder d s
  | .driveSeekError d => Sys2Proof.Machine.execDriveSeekError d s
  | .driveReadyDrop d => Sys2Proof.Machine.execDriveReadyDrop d s
  | .driveReadyRise d => Sys2Proof.Machine.execDriveReadyRise d s
  | .offlineLostTimeout d => Sys2Proof.Machine.execOfflineLostTimeout d s
  | .sectorPulse d writeProtect => Sys2Proof.Machine.execSectorPulse d writeProtect s
  | .relaySectorWriteEnd d => Sys2Proof.Machine.execRelaySectorWriteEnd d s
  | .emissionEnd d => Sys2Proof.Machine.execEmissionEnd d s
  | .awaitingSlotTimeout d => Sys2Proof.Machine.execAwaitingSlotTimeout d s
  | .indexPulse d => Sys2Proof.Machine.execIndexPulse d s
  | .indexWatchdogExpiry d => Sys2Proof.Machine.execIndexWatchdogExpiry d s
  | .syncHuntLimit d frames => Sys2Proof.Machine.execSyncHuntLimit d frames s
  | .imageComplete d frames => Sys2Proof.Machine.execImageComplete d frames s
  | .controllerWriteGateRaise d => Sys2Proof.Machine.execControllerWriteGateRaise d s
  | .controllerWriteGateDrop d => Sys2Proof.Machine.execControllerWriteGateDrop d s
  | .absorptionComplete d data check => Sys2Proof.Machine.execAbsorptionComplete d data check s
  | .diversionCommitComplete d => Sys2Proof.Machine.execDiversionCommitComplete d s
  | .emitFillComplete d => Sys2Proof.Machine.execEmitFillComplete d s
  | .captureWriteComplete d buffer => Sys2Proof.Machine.execCaptureWriteComplete d buffer s
  | .offsetSettleTimer d onCylinder => Sys2Proof.Machine.execOffsetSettleTimer d onCylinder s
  | .offsetFaultTimeout d => Sys2Proof.Machine.execOffsetFaultTimeout d s
  | .engineSeekTimeout d => Sys2Proof.Machine.execEngineSeekTimeout d s
  | .restoreSeekTimeout d => Sys2Proof.Machine.execRestoreSeekTimeout d s
  | .idleGraceExpiry d => Sys2Proof.Machine.execIdleGraceExpiry d s
  | .starveLimitExpiry job => Sys2Proof.Machine.execStarveLimitExpiry job s
  | .take d => Sys2Proof.Machine.execTake d s
  | .holdLimitExpiry d => Sys2Proof.Machine.execHoldLimitExpiry d s
  | .solveStart => Sys2Proof.Machine.execSolveStart s
  | .snapshotReadComplete slot => Sys2Proof.Machine.execSnapshotReadComplete slot s
  | .deliveryWriteComplete => Sys2Proof.Machine.execDeliveryWriteComplete s
  | .storeAccessGrant pick wrong => Sys2Proof.Machine.execStoreAccessGrant pick wrong s
  | .refreshTick => Sys2Proof.Machine.execRefreshTick s
  | .scrubTick => Sys2Proof.Machine.execScrubTick s
  | .refreshBurst => Sys2Proof.Machine.execRefreshBurst s
  | .scrubAccess wrong => Sys2Proof.Machine.execScrubAccess wrong s
  | .fetchSectorReadEnd => Sys2Proof.Machine.execFetchSectorReadEnd s
  | .fetchCaptureReadEnd => Sys2Proof.Machine.execFetchCaptureReadEnd s
  | .storeSectorWriteEnd => Sys2Proof.Machine.execStoreSectorWriteEnd s
  | .patchWriteEnd => Sys2Proof.Machine.execPatchWriteEnd s
  | .writeBufferFillEnd d => Sys2Proof.Machine.execWriteBufferFillEnd d s
  | .directoryCopyEnd slot => Sys2Proof.Machine.execDirectoryCopyEnd slot s
  | .frameReceived last => Sys2Proof.Machine.execFrameReceived last s
  | .framingFault => Sys2Proof.Machine.execFramingFault s
  | .frameGapTimeout => Sys2Proof.Machine.execFrameGapTimeout s
  | .transmitFrameEnd => Sys2Proof.Machine.execTransmitFrameEnd s
  | .identify => Sys2Proof.Machine.execIdentify s
  | .getTime => Sys2Proof.Machine.execGetTime s
  | .getDrive => Sys2Proof.Machine.execGetDrive s
  | .setProfile => Sys2Proof.Machine.execSetProfile s
  | .getProfile => Sys2Proof.Machine.execGetProfile s
  | .setSolve => Sys2Proof.Machine.execSetSolve s
  | .setShare => Sys2Proof.Machine.execSetShare s
  | .setLadder => Sys2Proof.Machine.execSetLadder s
  | .getLadder => Sys2Proof.Machine.execGetLadder s
  | .fileJob => Sys2Proof.Machine.execFileJob s
  | .cancelJob => Sys2Proof.Machine.execCancelJob s
  | .getJob => Sys2Proof.Machine.execGetJob s
  | .listJobs => Sys2Proof.Machine.execListJobs s
  | .listSuspects => Sys2Proof.Machine.execListSuspects s
  | .dropSuspect => Sys2Proof.Machine.execDropSuspect s
  | .listKeep => Sys2Proof.Machine.execListKeep s
  | .fetchSector => Sys2Proof.Machine.execFetchSector s
  | .fetchCapture => Sys2Proof.Machine.execFetchCapture s
  | .storeSector => Sys2Proof.Machine.execStoreSector s
  | .patchWord => Sys2Proof.Machine.execPatchWord s
  | .releaseSector => Sys2Proof.Machine.execReleaseSector s
  | .getStoreLog => Sys2Proof.Machine.execGetStoreLog s
  | .clearStoreLog => Sys2Proof.Machine.execClearStoreLog s
  | .setScrub => Sys2Proof.Machine.execSetScrub s
  | .unknownRequest => Sys2Proof.Machine.execUnknownRequest s
  | .byteReceived b => Sys2Proof.Machine.execByteReceived b s
  | .syncFound d frames => Sys2Proof.Machine.execSyncFound d frames s
  | .headerWordsRead d frames => Sys2Proof.Machine.execHeaderWordsRead d frames s

end Sys2Proof.Machine
end

