-- ==== Sys2Proof/Machine/Step.lean ====
section
/-! DEFINITION. One step: the command at the front of the queue, or a microsecond of the time base. -/

namespace Sys2Proof.Machine

/-- The time base one microsecond on (00, Times), modulo 2^40; an IDLE transmitter begins a frame that waits, as
the first after a reset does (R159). -/
def tick (s : State) : State :=
  { s with board := { s.board with now := s.board.now + 1 }, link := s.link.nextFrame }

/-- One step: the command at the front of the queue is taken and run on the state with the queue's rest; on an
empty queue a microsecond passes (log entry 2). -/
def step (s : State) : Host.Outcome State Fault Refusal :=
  match s.pending with
  | [] => .next (tick s)
  | c :: rest => exec c { s with pending := rest }

/-- The state with the command that a word spells put at the front of its queue; no word spells one, so the
state is unchanged (spec/opcode_table.json gives no row any bits). -/
def State.withFetchWord (s : State) (nbits w : Nat) : State :=
  match decodeTableWord nbits w with
  | some c => { s with pending := c :: s.pending }
  | none => s

end Sys2Proof.Machine
end

