-- ==== Sys2Proof/Safety.lean ====
section
/-! DEFINITION. What counts as a sound state and a safe step, in the terms the statements use. -/

namespace Sys2Proof.Machine

/-! ### Invariants -/

/-- Nothing raised in a step is left over: no notice, no answer, no examination asked for, no solve just ended. -/
abbrev State.quiet (s : State) : Prop :=
  s.board.out = [] ∧ s.board.answer = none ∧ s.board.exam = false ∧ s.board.solveOver = false

/-- The framer holds less of a payload than the frame's length, and the length is at most 512 (R155). -/
abbrev Framer.bounded (f : Framer) : Prop :=
  f.length.getD 0 ≤ 512 ∧ f.payload.length ≤ f.length.getD 0 ∧
    (f.phase = .payload → f.payload.length < f.length.getD 0) ∧
    (f.phase = .length ∨ f.phase = .kind ∨ f.phase = .tag → f.payload = [])

/-- The link's lists within their sizes (R153, R160). -/
abbrev Link.bounded (l : Link) : Prop :=
  l.queue.length ≤ 4 ∧ l.notices.length ≤ 32 ∧ l.lost ≤ 255 ∧ l.framer.bounded

/-- A drive's profile and tracker within the ranges of R9, R10 and R41. -/
abbrev Drive.inRange (x : Drive) : Prop :=
  1 ≤ x.profile.cylinders ∧ x.profile.cylinders ≤ 512 ∧ 1 ≤ x.profile.heads ∧ x.profile.heads ≤ 4 ∧
    8 ≤ x.profile.sectors ∧ x.profile.sectors ≤ 16 ∧ 15000 ≤ x.profile.period ∧ x.profile.period ≤ 40000 ∧
    x.rt.position < x.profile.sectors ∧ x.rt.history.length ≤ 8 ∧ x.rt.inBand ≤ 8

/-- The board's tables and counters within their sizes (R9, R41, R90, R94, R101, R113, R145). -/
def Board.inRange (b : Board) : Prop :=
  (∀ d, (b.drv d).inRange) ∧ b.re.jobs.length ≤ 8 ∧ b.re.suspects.length ≤ 64 ∧
    1 ≤ b.re.ladder.length ∧ b.re.ladder.length ≤ 16 ∧ b.su.k ≤ 10 ∧ 1 ≤ b.su.threshold ∧
    b.su.threshold ≤ 56 ∧ b.sk.pending ≤ 15 ∧ b.sk.log.length ≤ 16

/-- The store's tables stand in their order, and so no address, keep slot, capture slot or write record names the
same thing twice (R128, R132, R142). -/
def Store.ordered (ts : Store) : Prop :=
  (ts.dir.map (·.addr.key)).Pairwise (· < ·) ∧ (ts.keep.map (·.1)).Pairwise (· < ·) ∧ ts.pool.Pairwise (· < ·) ∧
    ts.writeRec.Pairwise (· < ·)

/-- The laws of the job table and of the suspect list: no two live jobs share an id, no two SALVAGE or RELAY jobs a
track, no two SURVEY jobs a drive (R90, R91); a SALVAGE names no sector twice and holds at most 8 captures for each
(R98); the suspect list names no track twice, and none that has a live SALVAGE or RELAY job (R101). The serials by
which the model names jobs are given once. -/
abbrev Engine.lawful (re : Engine) : Prop :=
  (re.jobs.map (·.id)).Nodup ∧ (re.jobs.map (·.serial)).Nodup ∧ (∀ j ∈ re.jobs, j.serial < re.nextSerial) ∧
    ((re.jobs.filter (·.kind ≠ .survey)).map Job.track).Nodup ∧
    ((re.jobs.filter (·.kind = .survey)).map (·.drive)).Nodup ∧
    (∀ j ∈ re.jobs, (j.sectors.map (·.sector)).Nodup ∧ ∀ r ∈ j.sectors, r.caps.length ≤ 8) ∧
    (re.suspects.map (·.track)).Nodup ∧ ∀ x ∈ re.suspects, ∀ j ∈ re.jobs, j.onTrack x.track = false

/-- Auto-salvage is off at every drive (R103). -/
abbrev Board.noAuto (b : Board) : Prop := ∀ d, b.re.auto.get d = false

/-- Every access still to be made and the scrub address lie in the store (R128). -/
def Board.inStore (b : Board) : Prop :=
  b.sk.address < Config.storeCells ∧
    ∀ op ∈ b.ts.ops, ∀ x ∈ op.todo,
      match x with
      | .read slot cell => cellAddress slot cell < Config.storeCells
      | .write slot cell _ => cellAddress slot cell < Config.storeCells

/-- A slot that is named, if any, is a slot of the store (R128). -/
def slotIn (slot : Option Nat) : Prop := ∀ n, slot = some n → n < Config.allSlots

/-- The slots a job names: its captures, its reservations, its slots aside and its PREPARE images (R97, R98, R105). -/
def Job.slotsIn (j : Job) : Prop :=
  (∀ r ∈ j.sectors, slotIn r.slot ∧ ∀ c ∈ r.caps, slotIn (some c.slot)) ∧
    ∀ r ∈ j.relay, slotIn r.aside ∧ slotIn (r.image.map (·.slot))

/-- The slots a set-up names (R61, R62). -/
def Setup.slotsIn : Setup → Prop
  | .none => True
  | .live x => slotIn (x.capture.bind (·.slot))
  | .pass x => ∀ p ∈ x.plans, slotIn (p.capture.bind (·.slot))

/-- The slots a drive port names: its diversion, its capture buffers and its set-up (R37, R61, R62, R64). -/
def Drive.slotsIn (x : Drive) : Prop :=
  slotIn (x.lp.diversion.map (·.slot)) ∧ slotIn x.rc.buf0.who.slot ∧ slotIn x.rc.buf1.who.slot ∧ x.rc.setup.slotsIn

/-- Every slot that anything on the board names is a slot of the store, and so is every cell still to be accessed
(R128). -/
def Board.slotsIn (b : Board) : Prop :=
  b.inStore ∧ (∀ e ∈ b.ts.dir, slotIn (some e.slot)) ∧ (∀ op ∈ b.ts.ops, slotIn (some op.slot)) ∧
    (∀ j ∈ b.re.jobs, j.slotsIn) ∧ (∀ f, b.su.flight = some f → ∀ m ∈ f.snapshot, slotIn (some m.slot)) ∧
    ∀ d, (b.drv d).slotsIn

/-! ### Filings -/

/-- The id a job filed now is given: the first after the last one given, from 255 on to 1, that no live job holds
(R90). -/
def Board.givesId (b : Board) (id : Nat) : Prop :=
  let after (n : Nat) : Nat := if 255 ≤ n then 1 else n + 1
  let live := b.re.jobs.map (·.id)
  id ∉ live ∧ ∃ n, id = after^[n + 1] b.re.lastId ∧ ∀ m, 1 ≤ m → m ≤ n → after^[m] b.re.lastId ∈ live

/-- The record of a job as it is filed (R90, R92): WAITING and PATIENT from now, at the ladder's start in its first
repeat, with no pass made, no seek failure and nothing recovered. -/
def FileReq.job (r : FileReq) (b : Board) (id : Nat) (sectors : List SalvageSector) (relay : List RelaySector) : Job :=
  { serial := b.re.nextSerial, id := id, kind := r.kind, drive := r.drive, cyl := r.cyl,
    head := if r.kind = .survey then 0 else r.head, endCyl := r.endCyl, curCyl := r.cyl.val, curHead := 0,
    tracksFound := 0, accept := r.accept, repeats := r.repeats, retain := r.retain, step := 0, passes := 0, rep := 1,
    exhausted := false, recal := false, tally := none, total := 0, abandoned := 0, seekFails := 0, level := .patient,
    since := b.now, filed := b.now, state := .waiting, sectors := sectors, relay := relay, relayStep := .prepare,
    stepPass := 0, stale := false, written := false, fatal := false }

/-! ### The end of a pass -/

/-- The share settings with a pending mode, if any, put in force (R72). -/
def Share.settled (sh : Share) : Share :=
  match sh.pending with
  | some m => { sh with mode := m, pending := none }
  | none => sh

/-- A drive before the closing pulse that ends a pass there, with no live slot open, no slot to report and none set
aside (R79). -/
def Drive.passCloses (x : Drive) : Prop :=
  x.lp.cmd.phase ≠ .transfer ∧ x.lp.cmd.phase ≠ .awaitingSlot ∧ x.rc.activity = .idle ∧ x.da.owner = .enginePass ∧
    x.da.stopAtEnd = false ∧ (x.profile.sectors ≤ x.da.slots ∨ x.da.atBoundary = true) ∧
    (∀ ps, x.rc.setup = .pass ps → ∀ q ∈ ps.plans, q.acted = true ∨ q.capture = none) ∧ ∀ ls, x.rc.setup ≠ .live ls

/-- Such a drive with no command held, where the engine hands the drive back: LIVE_ONLY is pending, which the decision
puts in force (R72, R80), or the drive is under speed doubt, so that no job is eligible (R75). No offset is on and the
heads stand at the live cylinder, so that the hand-back follows at once (R84). -/
def Drive.passOver (x : Drive) : Prop :=
  x.passCloses ∧ x.lp.cmd.phase ≠ .held ∧ x.da.held = false ∧
    (x.da.share.pending = some .liveOnly ∨ (x.da.share.pending = none ∧ x.rt.doubt = true)) ∧
    x.rc.offset = .zero ∧ x.da.headCyl = some x.lp.pos.cyl

/-- A drive at that pulse: the position counted, the set-up withdrawn, the write path disarmed (R42, R79, R106). -/
def Drive.passPulsed (x : Drive) (writeProtect : Bool) : Drive :=
  { x with
    pins := { x.pins with writeProtect := writeProtect }, rt := x.rt.advance x.profile.sectors,
    rc := { x.rc with setup := .none, shift := 0 },
    da := { x.da with wbuf := .empty, writing := none, writeImage := [] } }

/-- That drive handed back at once, its pass ended: LIVE_IDLE from now with the live head selected, no job served, a
pending mode in force (R72, R79, R84). -/
def Drive.handedBack (x : Drive) (now : Time) : Drive :=
  { x with
    pins := { x.pins with head := x.lp.pos.head },
    da := { x.da with
      owner := .liveIdle, idleStart := some now, served := none, passKind := none, slots := 0, atBoundary := false,
      abandon := false, preempted := false, stopAtEnd := false, missed := false, second := false, enginePos := none,
      work := .idle, surveyMask := 0, share := x.da.share.settled } }

/-- A drive at whose live cylinder the heads are not, where the restore begins with a seek there (R84). -/
def Drive.restoring (x : Drive) (now : Time) : Drive :=
  { x with
    pins := { x.pins with onCylinder := false, seekError := false },
    da := { x.da with
      owner := .engineRestore, second := false, served := none, passKind := none, slots := 0, atBoundary := false,
      abandon := false, preempted := false, stopAtEnd := false, missed := false, work := .restoreSeek, workAt := now,
      share := x.da.share.settled } }

/-- No write-buffer fill of the drive runs, and every DRAINING slot is still held (R131, R141). -/
def Board.noWriteFill (b : Board) (d : DriveNo) : Prop :=
  (∀ op ∈ b.ts.ops, ∀ k f, op.kind ≠ .writeFill d k f) ∧
    ∀ p ∈ b.ts.keep, p.2 = .draining → b.ts.slotHeld p.1 = true

/-- The solve unit has no solve of a job, queued or in flight (R112, R113). -/
def Board.noSolve (b : Board) (serial : Nat) : Prop :=
  (∀ q ∈ b.su.queue, q.1 ≠ serial) ∧ ∀ f, b.su.flight = some f → f.job ≠ serial

/-! ### What a command does -/

/-- The command completes: the step leaves the board b, but for what ends every step (settle: the examination
asked for, the answer, the notices and the next frame), and the store's cells as they were. -/
def Completes (c : Instr) (s : State) (b : Board) : Prop := exec c s = .next (settle s b s.link s.dram)

/-- The command completes and leaves the board b, but for what ends every step, and the store's cells m. -/
def CompletesWith (c : Instr) (s : State) (b : Board) (m : Dram) : Prop :=
  exec c s = .next (settle s b s.link m)

/-- The command completes as a change of the link alone, but for what ends every step. -/
def CompletesLink (c : Instr) (s : State) (l : Link) : Prop :=
  exec c s = .next (settle s s.board l s.dram)

/-- The request in hand has the given kind and a payload whose length fits it (R158, R165). -/
def State.inHand (s : State) (kind : Byte) (payload : List Byte) : Prop :=
  (∃ r, s.link.inHand = some r ∧ r.kind = kind ∧ r.payload = payload) ∧ lengthFits kind payload = true

/-- The command answers the request in hand with a status, an adjusted mark and fields, and leaves the board b
but for what ends every step (R158, R164). -/
def Answers (c : Instr) (s : State) (b : Board) (status : Status) (adjusted : Bool) (fields : List Byte) : Prop :=
  Completes c s { b with answer := some { status := status, adjusted := adjusted, fields := fields } }

/-- The command takes the request in hand and leaves it without an answer yet, with the board b (R158). -/
def Defers (c : Instr) (s : State) (b : Board) : Prop :=
  exec c s = .next (settle s b { s.link with hand := .handling } s.dram)

/-- The rows of the requests with their kinds (section 11.9). -/
def requestRows : List (Instr × Byte) :=
  [(.identify, 0x01), (.getTime, 0x02), (.getDrive, 0x03), (.setProfile, 0x04), (.setSolve, 0x05),
   (.getProfile, 0x06), (.setShare, 0x07), (.setLadder, 0x08), (.getLadder, 0x09), (.fileJob, 0x0A),
   (.cancelJob, 0x0B), (.getJob, 0x0C), (.listJobs, 0x0D), (.listSuspects, 0x0E), (.dropSuspect, 0x0F),
   (.listKeep, 0x10), (.fetchSector, 0x11), (.fetchCapture, 0x12), (.storeSector, 0x13), (.patchWord, 0x14),
   (.releaseSector, 0x15), (.getStoreLog, 0x16), (.clearStoreLog, 0x17), (.setScrub, 0x18), (.restart, 0x19)]

/-! ### Safe runs -/

/-- A step that neither faults nor is refused. -/
def State.stepsOn (s : State) : Prop := ∃ t, step s = .next t

end Sys2Proof.Machine
end

