-- ==== Sys2Proof/Certificates/Slice0/Obligations.lean ====
section
/-! DEFINITION. The statements about the 7100, from the numbered rules of spec/. In them settle is the end of
every step: the examination asked for is made (R103), the answer becomes a reply (R158), the notices raised are
queued (R160) and an IDLE transmitter begins its next frame (R159); EndOfStep says what it does. -/

open Sys2Proof Sys2Proof.Machine

/-! ### The machine -/

/-- A step takes the command at the front of the queue and runs it on the state with the queue's rest; on an empty
queue a microsecond passes (the model's choice, log entry 2). -/
def Obligations.StepRunsFront : Prop :=
  (∀ (c : Instr) (q : List Instr) (s : State),
    step { s with pending := c :: q } = exec c { s with pending := q }) ∧
  ∀ s : State, s.pending = [] →
    step s = .next { s with board := { s.board with now := s.board.now + 1 }, link := s.link.nextFrame }

/-- No command is refused, every command leaves the queue of waiting commands as it stands, and every command
completes but one that would reach beyond the store, which only STORE_ACCESS_GRANT and SCRUB_ACCESS can (the
model's choice, log entry 3: a command whose moment has not come changes nothing). But for these two and the
RESTART reset no command touches the store's cells. -/
def Obligations.EveryCommandCompletes : Prop :=
  ∀ (c : Instr) (s : State),
    let access := (∃ pick wrong, c = .storeAccessGrant pick wrong) ∨ ∃ wrong, c = .scrubAccess wrong
    (∃ t, exec c s = .next t ∧ t.pending = s.pending ∧ (¬ access → c ≠ .restartReset → t.dram = s.dram)) ∨
    (exec c s = .fault .noSuchCell ∧ ¬ s.board.inStore ∧ access)

/-- The end of a step: the examination asked for, the answer, the notices and the next frame. The examination (R103):
none is made unless asked for, and with auto-salvage off at every drive it does nothing. With one entry listed for the
drives whose auto-salvage is on and that are not lost, a SALVAGE of its mask's sectors below S is filed with grade B and
repeat count 1, as FILE_JOB would file it (R91, R92): the entry leaves the list and a SUSPECT notice FILED carries the
job's id; it stays listed where the track lies beyond the profile, no sector is left, a job is live on the track, the
table is full, the slots do not suffice or the store is initialising; with a passed write's gate up on the track it waits
for the drop (R35). A report of a track without a job (R102): one not listed joins the end of the list, ADDED is raised
and the examination made at once, before the rest of the step; with 64 listed it is DROPPED; one listed takes in the
mask, its count up by one. Where a solve has ended, the next one starts, and the step ends as from there (R124 step 6).
The answer of the request in hand joins the end of the reply list with its kind + 0x80 and its tag, unless a LINE BREAK
dropped its reply: then the request leaves the queue (R158, R161). The model's own choices in it: log entries 21, 39, 67
(the slots are given to the sectors in ascending order) and 81 (every notice of a step is queued before one begins). -/
def Obligations.EndOfStep : Prop :=
  (∀ (s : State) (b : Board) (l : Link) (m : Dram), b.solveOver = false →
    let c := b.examine
    settle s b l m =
      { board := { c with out := [], answer := none, exam := false, solveOver := false },
        link := (c.out.foldl Link.joinNotice
          (match c.answer with
            | some a => l.endHandling a
            | none => l)).nextFrame,
        dram := m, pending := s.pending }) ∧
  (∀ b : Board,
    let done (b : Board) : Board := { b with exam := false }
    (b.exam = false → b.examine = b) ∧ (b.noAuto → b.examine = done b) ∧
    ∀ x : Suspect, b.exam = true →
      b.re.suspects.filter (fun y => b.re.auto.get y.track.drive && !(b.drv y.track.drive).da.lost) = [x] →
      let p := (b.drv x.track.drive).profile
      let targets := maskSectors x.mask p.sectors
      let within := trackWithin p x.track.cyl.val x.track.head.val = true
      let room := Config.keepSlots - b.ts.keep.length
      let held := ∀ k ∈ targets, b.heldByHost (x.track.addr k) = false
      (¬ within ∨ targets = [] ∨ b.trackJob x.track ≠ none ∨ 8 ≤ b.re.jobs.length ∨ b.ts.init ≠ none ∨
          (held ∧ room < targets.length) →
        b.examine = done b) ∧
      (within → targets ≠ [] → b.trackJob x.track = none → b.re.jobs.length < 8 → b.ts.init = none → held →
        targets.length ≤ room →
        (b.gateOnTrack x.track = true →
          b.examine = done (b.modLp x.track.drive fun lp => { lp with autoWait := true })) ∧
        (b.gateOnTrack x.track = false → (b.ts.keep.map (·.1)).Pairwise (· < ·) →
          let r : FileReq :=
            { kind := .salvage, drive := x.track.drive, cyl := x.track.cyl, head := x.track.head, endCyl := 0,
              target := sectorSet targets, accept := .b, repeats := 1, retain := false }
          ∃ (id : Nat) (slots : List Nat),
            let free (n : Nat) : Prop := b.ts.keepState n = none
            b.givesId id ∧ slots.length = targets.length ∧ slots.Pairwise (· < ·) ∧
            (∀ n ∈ slots, free n ∧ n < Config.keepSlots ∧ ∀ m, m < n → free m → m ∈ slots) ∧
            b.examine =
              { b with
                exam := false,
                out := b.out ++ [⟨some x.track.drive, b.now, .suspectFiled x id⟩],
                ts := { b.ts with keep := slots.foldl (fun ks n => putKeep n .reserved ks) b.ts.keep },
                re := { b.re with
                  jobs := b.re.jobs ++ [r.job b id
                    (List.zipWith (fun k n =>
                      { sector := k, status := .pending, caps := [], best := none, slot := some n })
                      targets slots) []],
                  lastId := id, nextSerial := b.re.nextSerial + 1,
                  suspects := b.re.suspects.filter (·.track ≠ x.track) } }))) ∧
  (∀ (b : Board) (t : Track) (mask : SectorSet) (src : Source), b.trackJob t = none →
    let x : Suspect := { track := t, mask := mask, count := 1, first := b.now, last := b.now, source := src }
    ((∀ y ∈ b.re.suspects, y.track ≠ t) →
      (b.re.suspects.length < 64 →
        b.report t mask src =
          ({ b with exam := true, re := { b.re with suspects := b.re.suspects ++ [x] },
                    out := b.out ++ [⟨some t.drive, b.now, .suspectAdded x⟩] } : Board).examine) ∧
      (64 ≤ b.re.suspects.length →
        b.report t mask src =
          ({ b with out := b.out ++ [⟨some t.drive, b.now, .suspectDropped t mask src⟩] } : Board).examine)) ∧
    ((∃ y ∈ b.re.suspects, y.track = t) →
      b.report t mask src =
        ({ b with re := { b.re with suspects := b.re.suspects.map fun y =>
            if y.track = t then { y with mask := y.mask ||| mask, count := min 255 (y.count + 1), last := b.now }
            else y } } : Board).examine)) ∧
  (∀ (s : State) (b : Board) (l : Link) (m : Dram), b.solveOver = true →
    let next := ({ b with solveOver := false } : Board).solveStart
    next.solveOver = false → settle s b l m = settle s next l m) ∧
  ∀ (l : Link) (r : Request) (rest : List Request) (a : Answer), l.queue = r :: rest →
    l.endHandling a =
      if l.dropReply then { l with queue := rest, hand := .fresh, dropReply := false }
      else { l with replies := l.replies ++ [{ kind := r.kind + 0x80, tag := r.tag, answer := a }],
                    hand := .replied }

/-- A notice queued while the notice queue holds fewer than 32 joins the end with the mark, which becomes 0; one
queued while it holds 32 is lost and the mark goes up by one, stopping at 255. What the step leaves of the board and
the store is the same whether the notices it raises are queued or lost (R160). -/
def Obligations.NoticeQueued : Prop :=
  (∀ (l : Link) (n : Note),
    (l.notices.length < 32 →
      l.joinNotice n = { l with notices := l.notices ++ [{ lost := l.lost, note := n }], lost := 0 }) ∧
    (32 ≤ l.notices.length → l.lost ≤ 255 →
      l.joinNotice n = { l with lost := if l.lost < 255 then l.lost + 1 else 255 })) ∧
  ∀ (s : State) (b : Board) (l l' : Link) (m : Dram),
    (settle s b l m).board = (settle s b l' m).board ∧ (settle s b l m).dram = (settle s b l' m).dram

/-! ### Invariants -/

/-- Every step keeps the store's cells in their canonical form, the request queue within 4 requests and the notice
queue within 32 notices (R157), the lost-notice mark within 255 (R160), a frame in progress within 512 payload
bytes (R155), and nothing raised in a step left over after it. -/
def Obligations.StepKeepsForm : Prop :=
  ∀ s t : State, step s = .next t →
    (dramWf s.dram = true → dramWf t.dram = true) ∧ (s.link.bounded → t.link.bounded) ∧ (s.quiet → t.quiet)

/-- The tables and counters stay within their sizes: 8 jobs, 64 suspects, 1 to 16 ladder steps, 0 to 10 search
bits, a threshold of 1 to 56, 15 pending bursts, 16 log entries, and for each drive a profile in range and a
position below its sectors (R9, R10, R41, R90, R94, R101, R113, R145). And every slot that anything on the board names
(an entry, a capture, a reservation, a set-up, a diversion, an operation, a snapshot) stays a slot of the store, so that
every cell still to be accessed lies in it (R128). The tables keep their laws too: the directory stays in its order with
one entry for each address (R132), and the slots in use, the pool and the write record in theirs (R128, R142); no two jobs
share an id, no two SALVAGE or RELAY jobs a track (R90, R91), no capture set holds more than 8 (R98), and the suspect list
names no track twice, and none with such a job (R101). An entry made in a slot that no entry of another address has leaves
no two entries on one slot (R132). -/
def Obligations.TablesInRange : Prop :=
  (∀ s t : State, s.board.inRange → step s = .next t → t.board.inRange) ∧
  (∀ s t : State, s.board.slotsIn → step s = .next t → t.board.slotsIn ∧ t.board.inStore) ∧
  (∀ s t : State, s.board.ts.ordered → step s = .next t → t.board.ts.ordered) ∧
  (∀ s t : State, s.board.re.lawful → step s = .next t → t.board.re.lawful) ∧
  ∀ (b : Board) (a : Addr) (slot : Nat) (kind : KeepKind),
    b.ts.ordered → (b.ts.dir.map (·.slot)).Nodup → (∀ e ∈ b.ts.dir, e.slot = slot → e.addr = a) →
    ((b.createEntry a slot kind).ts.dir.map (·.slot)).Nodup

/-- The state right after reset keeps every invariant. -/
def Obligations.ResetInvariants : Prop :=
  dramWf State.reset.dram = true ∧ State.reset.link.bounded ∧ State.reset.quiet ∧ State.reset.board.inRange ∧
    State.reset.board.slotsIn ∧ State.reset.board.inStore ∧ State.reset.board.ts.ordered ∧ State.reset.board.re.lawful

/-! ### The store's cells -/

/-- A cell written reads as written, and every other cell as before; the canonical form is kept. The model's own
choices in it: log entry 8. -/
def Obligations.CellReadWrite : Prop :=
  ∀ (m : Dram) (a : Nat) (c : DramCell), dramWf m = true →
    dramWf (dramPut m a c) = true ∧ dramGet (dramPut m a c) a = c ∧
      ∀ a', a' ≠ a → dramGet (dramPut m a c) a' = dramGet m a'

/-! ### Power and resets -/

/-- A POWER_UP without good retention (R142, R143, R153): every block as after reset, each drive READY or OFFLINE by
its READY line, the store empty, at epoch 1 and initialising, the line rate from the straps and START queued. The
model's own choices in it: log entry 1 (values without a reset value in the spec), log entry 8 (the cells stay as the
outage left them until they are written) and log entry 20 (the drive lines). -/
def Obligations.PowerUpCold : Prop :=
  ∀ (strap1 strap2 : Bool) (ready : BitVec 4) (s : State),
    exec (.powerUp false strap1 strap2 ready) s = .next
      { board := { State.reset.board with
          strap1 := strap1, strap2 := strap2,
          drives := ⟨.reset 0 (ready.getLsbD 0), .reset 0 (ready.getLsbD 1), .reset 0 (ready.getLsbD 2),
            .reset 0 (ready.getLsbD 3)⟩ },
        link := { State.reset.link with
          rate := if strap1 then (if strap2 then 460800 else 57600) else (if strap2 then 115200 else 19200) },
        dram := s.dram, pending := s.pending }

/-- A POWER_UP with good retention (R142): the directory is kept with its entries that the write record names made
DAMAGED, the epoch goes up by one (from its greatest value to 1), each entry's slot is an ENTRY slot, no slot is
otherwise in use, the write record is empty and the store is ready; nothing else of the store survives. The model's
own choices in it, in each drive's record: log entries 1 and 20. -/
def Obligations.PowerUpRetained : Prop :=
  ∀ (strap1 strap2 : Bool) (ready : BitVec 4) (s : State),
    ∃ t, exec (.powerUp true strap1 strap2 ready) s = .next t ∧
      t.dram = s.dram ∧ t.pending = s.pending ∧
      t.board.ts.dir = s.board.ts.dir.map (fun e =>
        if s.board.ts.writeRec.contains e.slot && !e.damaged then { e with damaged := true, exported := false }
        else e) ∧
      t.board.ts.epoch = (if 4294967295 ≤ s.board.ts.epoch then 1 else s.board.ts.epoch + 1) ∧
      (∀ e ∈ s.board.ts.dir, t.board.ts.keepState e.slot = some .entry) ∧
      (∀ slot, (∀ e ∈ s.board.ts.dir, e.slot ≠ slot) → t.board.ts.keepState slot = none) ∧
      t.board.ts.pool = [] ∧ t.board.ts.ops = [] ∧ t.board.ts.writeRec = [] ∧ t.board.ts.init = none ∧
      t.board.sk = .reset ∧ t.board.su = .reset ∧ t.board.re.jobs = [] ∧ t.board.re.ladder = defaultLadder ∧
      ∀ d, t.board.drv d = .reset 0 (ready.getLsbD d.val)

/-! ### The service line -/

/-- A byte taken (R155). In HUNT 0xC3 starts a frame and every other byte is discarded. The two bytes of the length, high
byte first, the kind, the tag and each payload byte enter the running check and the frame; a length above 512 discards
the frame with a BAD_FRAME notice of cause LENGTH that carries it, and the framer hunts (R155, R156). After the tag, or
with the length reached, the phase is CHECK, where the first check byte is kept. In BROKEN no byte is taken (R161). A
framing fault, or more than 20 ms without a byte, discards the frame in progress with a BAD_FRAME notice and the framer
hunts; in HUNT and BROKEN neither does anything (R155, R156). The model's own choices in it: log entry 26: the sync byte
sets the last byte time too. -/
def Obligations.ByteReceived : Prop :=
  (∀ (x : Byte) (s : State),
     let f := s.link.framer
     let goes (g : Framer) : Prop := CompletesLink (.byteReceived x) s { s.link with framer := g }
     let summed : Framer := { f with lastByte := some s.board.now, check := f.check.rotateLeft 1 + x.setWidth 16 }
     (f.phase = .hunt →
       CompletesLink (.byteReceived x) s
         (if x = 0xC3 then
           { s.link with framer := { phase := .length, lenHigh := none, length := none, kind := none, tag := none,
                                     payload := [], check := 0, checkHigh := none,
                                     lastByte := some s.board.now } }
         else s.link)) ∧
     (f.phase = .length →
       (f.lenHigh = none → goes { summed with lenHigh := some x }) ∧
       ∀ high, f.lenHigh = some high →
         let n := high.toNat * 256 + x.toNat
         (n ≤ 512 → goes { summed with length := some n, phase := .kind }) ∧
         (512 < n →
           exec (.byteReceived x) s = .next (settle s
             (s.board.note none (.badFrame .length f.kind f.tag (some n)))
             { s.link with framer := Framer.hunting } s.dram))) ∧
     (f.phase = .kind → goes { summed with kind := some x, phase := .tag }) ∧
     (f.phase = .tag →
       goes { summed with tag := some x, phase := if f.length.getD 0 = 0 then .check else .payload }) ∧
     (f.phase = .payload →
       goes { summed with
         payload := f.payload ++ [x],
         phase := if f.length.getD 0 ≤ f.payload.length + 1 then .check else .payload }) ∧
     (f.phase = .check → f.checkHigh = none →
       goes { f with lastByte := some s.board.now, checkHigh := some x }) ∧
     (f.phase = .broken → CompletesLink (.byteReceived x) s s.link)) ∧
  ∀ s : State,
    let f := s.link.framer
    let hunting := { s.link with framer := Framer.hunting }
    let bad (cause : BadCause) : Board := s.board.note none (.badFrame cause f.kind f.tag f.length)
    (f.phase ≠ .hunt → f.phase ≠ .broken →
      exec .framingFault s = .next (settle s (bad .framing) hunting s.dram) ∧
      ∀ t, f.lastByte = some t → 20000 < (s.board.now - t).toNat →
        exec .frameGapTimeout s = .next (settle s (bad .gap) hunting s.dram)) ∧
    (f.phase = .hunt ∨ f.phase = .broken →
      CompletesLink .framingFault s s.link ∧ CompletesLink .frameGapTimeout s s.link)

/-- The second check byte ends a frame (R155, R156, R157): one whose check differs is discarded with a BAD_FRAME
notice; a good request joins a queue of fewer than 4, or is answered BUSY, or, with 4 BUSY replies waiting, is
dropped with a REQUEST_DROPPED notice; a kind outside 0x01..0x3F is discarded with cause KIND. -/
def Obligations.FrameReceived : Prop :=
  ∀ (last high kind tag : Byte) (s : State),
    s.link.framer.phase = .check → s.link.framer.checkHigh = some high →
    s.link.framer.kind = some kind → s.link.framer.tag = some tag →
    let f := s.link.framer
    let hunting := { s.link with framer := Framer.hunting }
    let bad (cause : BadCause) : Board :=
      s.board.note none (.badFrame cause f.kind f.tag f.length)
    exec (.frameReceived last) s = .next
      (if high ++ last ≠ f.check then settle s (bad .check) hunting s.dram
      else if kind.toNat = 0 ∨ 0x40 ≤ kind.toNat then settle s (bad .kind) hunting s.dram
      else if s.link.queue.length < 4 then
        settle s s.board
          { hunting with queue := s.link.queue ++ [{ kind := kind, tag := tag, payload := f.payload }] } s.dram
      else if s.link.replies.countP (·.answer.status = .busy) < 4 then
        settle s s.board
          { hunting with replies := s.link.replies ++
              [{ kind := kind + 0x80, tag := tag,
                 answer := { status := .busy, adjusted := false, fields := [] } }] } s.dram
      else settle s (s.board.note none (.requestDropped kind tag)) hunting s.dram)

/-- A LINE BREAK while no RESTART is under way and no reply of the request in hand is on the line (R161): the framer
is BROKEN and its frame dropped without a BAD_FRAME, every request behind the one in hand is dropped, and so are the
replies waiting; a request in hand already answered leaves the queue with its reply, one still to be answered loses
its reply when its handling ends; the notices, the mark and the frame being sent are kept and LINE_BREAK is queued. A
second break has no effect, and the end of the break brings the framer to HUNT. The model's own choices in it: log
entry 23: the 100 ms are the sender's. -/
def Obligations.LineBreak : Prop :=
  (∀ s : State, s.link.framer.phase ≠ .broken → s.link.restart = .none → s.link.sendingHand = false →
    let broken : Link := { s.link with framer := { Framer.hunting with phase := .broken }, replies := [] }
    exec .lineBreak s = .next (settle s (s.board.note none .lineBreak)
      (match s.link.queue with
        | [] => broken
        | r :: _ =>
          if s.link.hand = .replied then { broken with queue := [], hand := .fresh }
          else { broken with queue := [r], dropReply := true }) s.dram)) ∧
  (∀ s : State, s.link.framer.phase = .broken → CompletesLink .lineBreak s s.link) ∧
  ∀ s : State,
    CompletesLink .breakEnd s
      (if s.link.framer.phase = .broken then { s.link with framer := Framer.hunting } else s.link)

/-- The end of a frame on the line (R158, R162): after the reply of the request in hand the request leaves the queue
and the next comes into hand; after the RESTART reply the reset is due; after any other frame neither. Then, and
whenever the transmitter is IDLE, the oldest reply, else the oldest notice, begins and leaves its list (R159); none
begins while the RESTART reset is due. The model's own choices in it: log entry 34. -/
def Obligations.Transmitter : Prop :=
  (∀ s : State,
    CompletesLink .transmitFrameEnd s
      (match s.link.tx with
        | some (.reply r) =>
          if r.answer.status = .busy then { s.link with tx := none }
          else if s.link.restart = .replying then { s.link with tx := none, restart := .due }
          else { s.link with tx := none, queue := s.link.queue.drop 1, hand := .fresh }
        | some (.notice _) => { s.link with tx := none }
        | none => { s.link with tx := none })) ∧
  ∀ l : Link,
    (l.tx ≠ none ∨ l.restart = .due → l.nextFrame = l) ∧
    (l.tx = none → l.restart ≠ .due →
      (∀ r rs, l.replies = r :: rs → l.nextFrame = { l with tx := some (.reply r), replies := rs }) ∧
      (∀ n ns, l.replies = [] → l.notices = n :: ns →
        l.nextFrame = { l with tx := some (.notice n), notices := ns }) ∧
      (l.replies = [] → l.notices = [] → l.nextFrame = l))

/-- RESTART handled: its reply is OK and no further request is taken into hand; with the reply dropped by a LINE BREAK
the reset is due at once (R162). A RESTART reset while no commit or directory copy is in progress (R88, R144, R145,
R153, R162): the profiles, trackers, channels, live path, engine and solve unit stand as after POWER_UP; the
directory, the epoch, the log, the scrub address, the refresh state and the cells are kept; only ENTRY slots stay in
use; the link is empty but for START. A drive that the engine did not own is LIVE_IDLE, LIVE_BUSY while a live seek
still moves, or OFFLINE. The model's own choices in it: log entries 1, 14 and 34, and log entry 48: the directory is kept
also where a passed write's gate is up and its target has got an entry meanwhile. -/
def Obligations.Restart : Prop :=
  (∀ s : State, s.inHand 0x19 [] →
     exec .restart s = .next (settle s
       { s.board with answer := some { status := .ok, adjusted := false, fields := [] } }
       { s.link with restart := if s.link.dropReply then .due else .replying } s.dram)) ∧
  ∀ s : State, s.link.restart = .due →
    (∀ op ∈ s.board.ts.ops, (∀ d, op.kind ≠ .commit d) ∧ ∀ a n, op.kind ≠ .copy a n) →
    ∃ t, exec .restartReset s = .next t ∧
      t.dram = s.dram ∧ t.pending = s.pending ∧ t.board.now = s.board.now ∧
      t.board.re = .reset ∧ t.board.su = .reset ∧
      t.board.sk = { s.board.sk with tickCount := 0, interval := 128, waiting := false } ∧
      t.board.ts = { s.board.ts with
        keep := Store.entrySlots s.board.ts.dir, pool := [], ops := [],
        writeRec := s.board.ts.writeRec.filter fun x => !s.board.ts.ops.any (·.writes x) } ∧
      t.link = { rate := s.link.rate, framer := .hunting, queue := [], hand := .fresh, dropReply := false,
                 restart := .none, replies := [], tx := none, lost := 0,
                 notices := [⟨0, ⟨none, s.board.now, .start true none s.board.ts.epoch s.board.ts.dir.length
                   s.board.ts.init.isSome⟩⟩] } ∧
      ∀ d, (t.board.drv d).profile = .default ∧ (t.board.drv d).rt = .reset ∧ (t.board.drv d).rc = .reset ∧
        (t.board.drv d).lp = { LivePath.reset with seeking := (s.board.drv d).lp.seeking } ∧
        ((s.board.drv d).da.owner.engine = false →
          (t.board.drv d).da.owner =
            if ((s.board.drv d).da.owner = .liveBusy ∨ (s.board.drv d).da.owner = .taking) ∧
                (s.board.drv d).lp.seeking = true then .liveBusy
            else if (s.board.drv d).pins.ready then .liveIdle else .offline) ∧
        ((s.board.drv d).da.owner.engine = true → (t.board.drv d).da.owner = .engineRestore)

/-! ### The controller port -/

/-- A SEEK or RECALIBRATE that LP starts (R15, R17, R18, R71, R76): it is sent to the drive, the live cylinder is its
cylinder (0 for a RECALIBRATE), the record is SEEKING and the arbiter LIVE_BUSY, or TAKING when a PRESSING eligible
job waits. A HEAD_SELECT selects the head and ends at once; the drive stays LIVE_IDLE. The model's own choices in it:
log entry 20: the drive's ON_CYLINDER and SEEK_ERROR fall as a movement is sent. -/
def Obligations.SeekStarts : Prop :=
  ∀ (d : DriveNo) (s : State),
    let x := s.board.drv d
    let put (x : Drive) : Board := { s.board with drives := s.board.drives.set d x }
    let sent (c : CtrlCmd) (n : Fin 512) : Board :=
      put { x with
        pins := { x.pins with onCylinder := false, seekError := false },
        lp := { x.lp with
          seOver := false, wpOver := false, seeking := true, pos := { x.lp.pos with cyl := n },
          cmd := { CmdRec.idle with phase := .seeking, cmd := some c } },
        da := { x.da with owner := if s.board.pressing d then .taking else .liveBusy } }
    x.lp.cmd.phase = .none → x.da.owner = .liveIdle → x.da.share.mode ≠ .salvageOnly →
    (∀ n, Completes (.seek d n) s (sent (.seek n) n)) ∧ Completes (.recalibrate d) s (sent .recalibrate 0) ∧
    ∀ h, Completes (.headSelect d h) s
      (put { x with
        pins := { x.pins with head := h },
        lp := { x.lp with seOver := false, wpOver := false, pos := { x.lp.pos with head := h }, cmd := .idle },
        da := { x.da with idleStart := some s.board.now } })

/-- A READ that LP starts (R19, R22, R23, R29): it waits for its slot with the settings read at its start. Beyond
the profile or under an unestablished position it passes by address. With a keep entry that serves it will be emitted:
from the buffer where it is VALID and holds the address, else from a fill that starts now, the read of the entry's slot
requested and the buffer FILLING for the address (R24, R25). With no such entry and no job that names the sector, the
channel is set up to check it. -/
def Obligations.ReadStarts : Prop :=
  ∀ (d : DriveNo) (k : Fin 16) (s : State),
    let x := s.board.drv d
    let a : Addr := { drive := d, cyl := x.lp.pos.cyl, head := x.lp.pos.head, sector := k }
    let within := withinProfile x.profile a.cyl.val a.head.val k.val && x.lp.pos.established
    let waits (c : Course) (rc : Channel) : Board :=
      { s.board with drives := s.board.drives.set d { x with
          rc := rc,
          lp := { x.lp with
            seOver := false, wpOver := false,
            cmd := { phase := .awaitingSlot, cmd := some (.read k), target := a, beyond := !within,
                     started := s.board.now, limit := 2 * x.profile.period, sub := x.lp.sub,
                     grade := x.lp.grade, course := c } },
          da := { x.da with owner := if s.board.pressing d then .taking else .liveBusy } } }
    x.lp.cmd.phase = .none → x.da.owner = .liveIdle → x.da.share.mode ≠ .salvageOnly →
    (within = false → Completes (.read d k) s (waits .plain x.rc)) ∧
    (within = true → x.lp.buf.state = .valid → x.lp.buf.addr = a →
      (∃ e, s.board.ts.entry a = some e ∧ e.serves x.lp.sub x.lp.grade = true) →
      Completes (.read d k) s (waits .emit x.rc)) ∧
    (∀ e, within = true → s.board.ts.entry a = some e → e.serves x.lp.sub x.lp.grade = true →
      x.lp.buf.state ≠ .absorbing → (x.lp.buf.state ≠ .valid ∨ x.lp.buf.addr ≠ a) →
      (∀ op ∈ s.board.ts.ops, op.kind ≠ .fill d) →
      (∀ p ∈ s.board.ts.keep, p.2 = .draining → s.board.ts.slotHeld p.1 = true) →
      let y := (waits .emit x.rc).drv d
      Completes (.read d k) s
        { s.board with
          drives := s.board.drives.set d { y with lp := { y.lp with
            buf := { state := .filling, addr := a, image := [] } } },
          ts := { s.board.ts with ops := s.board.ts.ops ++
            [{ kind := .fill d, slot := e.slot, at_ := s.board.now, todo := slotReads e.slot Config.imageCells,
               got := [], syn := [], double := false, wrote := [], spoiled := false, lastAt := s.board.now }] } }) ∧
    (within = true → (∀ e, s.board.ts.entry a = some e → e.serves x.lp.sub x.lp.grade = false) →
      s.board.captureJob a = none →
      Completes (.read d k) s (waits .relay { x.rc with
        shift := 0,
        setup := .live { cyl := a.cyl.val, head := a.head.val, sector := k.val, capture := none } }))

/-- A WRITE that LP starts waits for its slot; its course is settled at the slot's opening pulse, but for one
beyond the profile or under an unestablished position, which passes by address (R19, R22, R33). -/
def Obligations.WriteStarts : Prop :=
  ∀ (d : DriveNo) (k : Fin 16) (s : State),
    let x := s.board.drv d
    let a : Addr := { drive := d, cyl := x.lp.pos.cyl, head := x.lp.pos.head, sector := k }
    let within := withinProfile x.profile a.cyl.val a.head.val k.val && x.lp.pos.established
    x.lp.cmd.phase = .none → x.da.owner = .liveIdle → x.da.share.mode ≠ .salvageOnly →
    Completes (.write d k) s
      { s.board with drives := s.board.drives.set d { x with
          lp := { x.lp with
            seOver := false, wpOver := false,
            cmd := { phase := .awaitingSlot, cmd := some (.write k), target := a, beyond := !within,
                     started := s.board.now, limit := 2 * x.profile.period, sub := x.lp.sub,
                     grade := x.lp.grade, course := if within then .undecided else .plain } },
          da := { x.da with owner := if s.board.pressing d then .taking else .liveBusy } } }

/-- A command that arrives while the arbiter is LIVE_BUSY, TAKING or owned by the engine is latched HELD with its
hold start; under LIVE_FIRST it asks a positioning to be abandoned and a pass to end at the boundary (R15, R20,
R78, R81). Under SALVAGE_ONLY or with the drive OFFLINE it only clears the overrides (R15, R73). One that finds a
command in progress changes nothing (log entry 19). -/
def Obligations.CommandHeld : Prop :=
  ∀ (d : DriveNo) (s : State),
    let x := s.board.drv d
    let put (x : Drive) : Board := { s.board with drives := s.board.drives.set d x }
    let cleared : LivePath := { x.lp with seOver := false, wpOver := false }
    let latched (c : CtrlCmd) : Board :=
      put { x with
        lp := { cleared with cmd := { CmdRec.idle with phase := .held, cmd := some c } },
        da := { x.da with
          held := true, holdStart := some s.board.now, limitHit := false,
          preempted := x.da.preempted || (x.da.share.mode = .liveFirst && x.da.owner = .enginePosition),
          atBoundary := x.da.atBoundary || (x.da.share.mode = .liveFirst && x.da.owner = .enginePass) } }
    let outcome (c : CtrlCmd) : Board :=
      if x.lp.cmd.phase ≠ .none then s.board
      else if x.da.share.mode = .salvageOnly ∨ x.da.owner = .offline then put { x with lp := cleared }
      else latched c
    (x.lp.cmd.phase = .none → x.da.share.mode ≠ .salvageOnly → x.da.owner ≠ .liveIdle) →
    (∀ n, Completes (.seek d n) s (outcome (.seek n))) ∧ Completes (.recalibrate d) s (outcome .recalibrate) ∧
    (∀ h, Completes (.headSelect d h) s (outcome (.headSelect h))) ∧
    (∀ k, Completes (.read d k) s (outcome (.read k))) ∧ ∀ k, Completes (.write d k) s (outcome (.write k))

/-- BUS CLEAR (R21, R88). While no live READ or WRITE waits or transfers, no diversion is in progress and no buffer is
being filled: at every drive the live command is forgotten, the overrides and the held-command flag are cleared and the
emit buffer is INVALID; nothing else changes. In general it is carried out at each drive: a READ or WRITE that waits or
transfers ends, its channel stopped without a report (R67), its write gate dropped (R35), its emission over (R28) and the
drive LIVE_IDLE (R19, R71); a diversion not yet committing is abandoned and its slot FREE, unless it is that of the entry
at the target (R39); one whose commit has begun goes on, its buffer to become INVALID at the commit's end; a fill is
abandoned (R24). Stated at a drive without a capture or a completed image, a gate that is to release no entry, and a held
slot that no operation holds. The model's own choices in it: log entry 13: the stop that a held command or the hold limit
asked of a positioning is withdrawn with the command, and a pass end already asked for stands; log entry 60: so does a
hold-limit stop that waits for its sector's end; log entry 68: the order of the drives. -/
def Obligations.BusClear : Prop :=
  (∀ s : State,
    let cleared (x : Drive) : Drive :=
      { x with
        lp := { x.lp with cmd := .idle, seOver := false, wpOver := false, buf := .empty },
        da := if x.lp.cmd.phase = .held then
            { x.da with held := false, holdStart := none, limitHit := false, preempted := false }
          else x.da }
    (∀ d, (s.board.drv d).lp.diversion = none ∧ (s.board.drv d).lp.cmd.phase ≠ .awaitingSlot ∧
      (s.board.drv d).lp.cmd.phase ≠ .transfer) →
    (∀ op ∈ s.board.ts.ops, ∀ d, op.kind ≠ .fill d) →
    (∀ p ∈ s.board.ts.keep, p.2 = .draining → s.board.ts.slotHeld p.1 = true) →
    Completes .busClear s
      { s.board with drives := ⟨cleared s.board.drives.d0, cleared s.board.drives.d1,
          cleared s.board.drives.d2, cleared s.board.drives.d3⟩ }) ∧
  (∀ s : State, Completes .busClear s (([0, 1, 2, 3] : List DriveNo).foldl Board.busClearDrive s.board)) ∧
  ∀ (b : Board) (d : DriveNo),
    let x := b.drv d
    let live := x.lp.cmd.phase = .awaitingSlot ∨ x.lp.cmd.phase = .transfer
    let stopped : Channel :=
      { x.rc with
        activity := .idle, setup := .none, shift := 0,
        slotFor := if x.rc.activity = .idle then x.rc.slotFor else none,
        notKept := x.rc.activity = .idle && x.rc.notKept }
    let rc : Channel := match x.rc.setup with
      | .live _ => if live then stopped else x.rc
      | _ => x.rc
    let da : Arbiter :=
      if live then { x.da with owner := .liveIdle, idleStart := some b.now }
      else if x.lp.cmd.phase = .held then
        { x.da with held := false, holdStart := none, limitHit := false, preempted := false }
      else x.da
    let ended : LivePath :=
      if live then
        { x.lp with gate := false, releases := false, emission := none,
                    bufChanged := x.lp.bufChanged && x.lp.emission.isNone }
      else x.lp
    let put (buf : EmitBuffer) (diversion : Option Diversion) : Board :=
      { b with drives := b.drives.set d { x with
          lp := { ended with cmd := .idle, seOver := false, wpOver := false, buf := buf, diversion := diversion },
          rc := rc, da := da } }
    let unfilled (b : Board) : Board :=
      { b with ts := { b.ts with ops := b.ts.ops.filter fun op => op.kind ≠ .fill d } }
    b.exam = false → b.filing = none → x.lp.autoWait = false → x.lp.gate = false ∨ x.lp.releases = false →
    (∀ ls, x.rc.setup = .live ls → ls.capture = none ∧ x.rc.slotBuf = none ∧ x.rc.activity ≠ .complete) →
    (live → x.da.owner = .liveBusy ∧ x.da.share.pending = none) →
    (∀ op ∈ b.ts.ops, op.kind = .fill d → op.wrote = []) → (∀ p ∈ b.ts.keep, p.2 ≠ .draining) →
    (x.lp.diversion = none → b.busClearDrive d = unfilled (put .empty none)) ∧
    ∀ dv, x.lp.diversion = some dv → x.lp.emission = none →
      (dv.committing = true → b.busClearDrive d = put x.lp.buf (some { dv with cleared := true })) ∧
      (dv.committing = false → live →
        ((b.ts.entry dv.target).any (·.slot = dv.slot) = true → b.busClearDrive d = unfilled (put .empty none)) ∧
        ((b.ts.entry dv.target).any (·.slot = dv.slot) = false → b.noAuto → b.ts.slotHeld dv.slot = false →
          (∀ e v, e ≠ d → (b.drv e).lp.diversion = some v → v.slot ≠ dv.slot) →
          b.busClearDrive d =
            let c := unfilled (put .empty none)
            { c with ts := { c.ts with keep := b.ts.keep.filter (·.1 ≠ dv.slot) } }))

/-- The controller's write gate (R35, R36, R38, R39). It rises in the slot of a passed write: the drive's gate follows,
and at the first rise the keep entry at the target is released, its slot let go and an emit buffer that holds the
address INVALID; a write relayed by address releases nothing. With a SALVAGE or RELAY job live for the track, filed since
the opening pulse, no drive gate rises: the write is refused. At a diversion not yet committing the rise starts the
absorption. It drops: the drive's gate follows, an entry made at the target while it was up is released, and a diversion
not yet committing is abandoned: its slot is let go unless it is that of the entry at the target, and the buffer is
INVALID. The model's own choices in it: log entry 47: the write whose track came under a job after its opening pulse is
refused; log entry 57: at a later drop in the same slot an entry made between a first drop and the second rise is
released too; log entry 21: where the examination is made; log entry 3: a rise with the gate up, or a drop with it down,
changes nothing. What a FILE_JOB or an automatic filing that waits for the drop does at it is left out. -/
def Obligations.WriteGate : Prop :=
  ∀ (d : DriveNo) (s : State), s.quiet →
    let x := s.board.drv d
    let a := x.lp.cmd.target
    let put (gate : Bool) (lp : LivePath) : Board :=
      { s.board with drives := s.board.drives.set d { x with pins := { x.pins with ctrlGate := gate }, lp := lp } }
    let free (slot : Nat) (held : Bool) : List (Nat × KeepState) :=
      if held then putKeep slot .held s.board.ts.keep
      else if s.board.ts.slotHeld slot then putKeep slot .draining s.board.ts.keep
      else s.board.ts.keep.filter (·.1 ≠ slot)
    let released (gate : Bool) (lp : LivePath) : Board :=
      match s.board.ts.entry a with
      | none => put gate lp
      | some e =>
        { put gate { lp with buf :=
            if lp.buf.addr = a ∧ (lp.buf.state = .valid ∨ lp.buf.state = .filling) then .empty else lp.buf } with
          exam := true,
          ts := { s.board.ts with dir := s.board.ts.dir.filter (·.addr ≠ a),
                                  keep := free e.slot (s.board.divertHolds e.slot) } }
    let noFill := (∀ op ∈ s.board.ts.ops, op.kind ≠ .fill d) ∧
      ∀ p ∈ s.board.ts.keep, p.2 = .draining → s.board.ts.slotHeld p.1 = true
    (x.pins.ctrlGate = false → x.lp.cmd.passes = true →
      (∀ j, s.board.trackJob a.track = some j →
        Completes (.controllerWriteGateRaise d) s
          (put true { x.lp with wpOver := true, cmd := { x.lp.cmd with course := .refuse } })) ∧
      (s.board.trackJob a.track = none → x.lp.cmd.course = .pass → x.lp.releases = false → a.drive = d →
        x.lp.emission = none → noFill →
        Completes (.controllerWriteGateRaise d) s
          (released true { x.lp with gate := true, releases := true })) ∧
      (s.board.trackJob a.track = none → x.lp.cmd.course = .plain ∨ x.lp.releases = true →
        Completes (.controllerWriteGateRaise d) s (put true { x.lp with gate := true }))) ∧
    (x.pins.ctrlGate = false → x.lp.cmd.passes = false →
      Completes (.controllerWriteGateRaise d) s
        (put true { x.lp with diversion := x.lp.diversion.map fun dv =>
          { dv with gate := dv.gate || !dv.committing } })) ∧
    (x.pins.ctrlGate = true → Completes (.controllerWriteGateRaise d) s s.board) ∧
    (x.pins.ctrlGate = false → Completes (.controllerWriteGateDrop d) s s.board) ∧
    (x.pins.ctrlGate = true → x.lp.gate = true → x.lp.diversion = none → s.board.filing = none →
      x.lp.autoWait = false →
      (x.lp.releases = false → Completes (.controllerWriteGateDrop d) s (put false { x.lp with gate := false })) ∧
      (x.lp.releases = true → a.drive = d → x.lp.emission = none → x.lp.cmd.phase = .transfer →
        noFill → Completes (.controllerWriteGateDrop d) s (released false { x.lp with gate := false }).examine)) ∧
    (∀ dv, x.pins.ctrlGate = true → x.lp.gate = false → x.lp.diversion = some dv →
      (dv.committing = true → Completes (.controllerWriteGateDrop d) s (put false x.lp)) ∧
      (dv.committing = false →
        (∀ e v, e ≠ d → (s.board.drv e).lp.diversion = some v → v.slot ≠ dv.slot) →
        let gone : Board := put false { x.lp with diversion := none, buf := .empty }
        Completes (.controllerWriteGateDrop d) s
          (if (s.board.ts.entry dv.target).any (·.slot = dv.slot) then gone
          else
            Board.examine
              { gone with exam := !s.board.ts.slotHeld dv.slot,
                          ts := { s.board.ts with keep := free dv.slot false } })))

/-- The absorption of a diversion ends (R8, R38, R40): the image is built with the diversion's address and volume and
the controller's data words, its writes into the held slot are requested, and a check word that differs raises
WRITE_CHECK_MISMATCH with both words. The model's own choices in it: log entry 7. -/
def Obligations.AbsorptionComplete : Prop :=
  ∀ (d : DriveNo) (data : List Word) (check : Word) (dv : Diversion) (s : State),
    (s.board.drv d).lp.diversion = some dv → dv.gate = true → dv.committing = false →
    let x := s.board.drv d
    let img := buildImage dv.target dv.volume data
    let op : StoreOp :=
      { kind := .commit d, slot := dv.slot, at_ := s.board.now, todo := slotWrites dv.slot img fullValues,
        got := [], syn := [], double := false, wrote := [], spoiled := false, lastAt := s.board.now }
    Completes (.absorptionComplete d data check) s
      { s.board with
        drives := s.board.drives.set d { x with
          lp := { x.lp with diversion := some { dv with committing := true, image := img } } },
        ts := { s.board.ts with ops := s.board.ts.ops ++ [op] },
        out := s.board.out ++
          if img.getD 130 0 = check then []
          else [⟨some d, s.board.now, .writeCheckMismatch dv.target check (img.getD 130 0)⟩] }

/-- The commit of a diversion ends (R21, R37, R40, R109, R134): the target's entry is DIVERTED in the held slot with the
image's time and epoch, in the place of one that stood there, whose own slot, if another, is FREE; the held slot is an
ENTRY slot, the buffer VALID with the image, or INVALID after a BUS CLEAR, and the diversion is over. With either end, a
RELAY of the track is marked stale, which one that is WAITING acts on at once by its step; the unresolved target of a
SALVAGE with others unresolved is SUPERSEDED, its reserved slot FREE and its queued pair gone. The examination that a
freed slot starts follows (R103); then, with the write's command still in TRANSFER, the record is NONE and the drive
LIVE_IDLE (R19, R71). The model's own choices in it: log entry 7, log entry 21 (where the examination
is made) and log entry 80 (the SUPERSEDED sector keeps the record of its best result). -/
def Obligations.CommitComplete : Prop :=
  ∀ (d : DriveNo) (dv : Diversion) (op : StoreOp) (s : State),
    let x := s.board.drv d
    let old := (s.board.ts.entry dv.target).filter (·.slot ≠ dv.slot)
    let held (slot : Nat) := ∃ e v, e ≠ d ∧ (s.board.drv e).lp.diversion = some v ∧ v.slot = slot
    let writing := x.lp.cmd.phase = .transfer ∧ x.lp.cmd.course = .divert
    let keep := (putKeep dv.slot .entry s.board.ts.keep).filter fun p => !old.any (·.slot = p.1)
    let made : Board :=
      { s.board with
        exam := old.isSome,
        drives := s.board.drives.set d { x with
          lp := { x.lp with
            diversion := none,
            buf := if dv.cleared then .empty else { state := .valid, addr := dv.target, image := dv.image } } },
        ts := { s.board.ts with
          ops := [], keep := keep, writeRec := s.board.ts.writeRec.filter (!op.writes ·),
          dir := dirInsert { addr := dv.target, slot := dv.slot, kind := .diverted, damaged := false,
                             time := s.board.now, epoch := s.board.ts.epoch, exported := false }
            s.board.ts.dir } }
    let ends (b : Board) : Prop :=
      let y := b.examine.drv d
      (¬ writing → Completes (.diversionCommitComplete d) s b.examine) ∧
      (writing → x.da.owner = .liveBusy → x.da.share.pending = none →
        Completes (.diversionCommitComplete d) s
          { b.examine with drives := b.examine.drives.set d { y with
              lp := { y.lp with cmd := .idle },
              da := { y.da with owner := .liveIdle, idleStart := some s.board.now } } })
    let jobs (b : Board) (serial : Nat) (f : Job → Job) : Board :=
      { b with re := { b.re with jobs := b.re.jobs.map fun i => if i.serial = serial then f i else i } }
    s.quiet → s.board.re.lawful →
    s.board.ts.ops = [op] → op.kind = .commit d → op.todo = [] → op.spoiled = false →
    x.lp.diversion = some dv → dv.target.drive = d → x.lp.buf.addr = dv.target → x.lp.buf.state = .absorbing →
    (∀ p ∈ s.board.ts.keep, p.2 ≠ .draining) → (∀ e, old = some e → ¬ held e.slot) →
    (s.board.trackJob dv.target.track = none → ends made) ∧
    ∀ j, s.board.trackJob dv.target.track = some j →
      (j.kind = .relay →
        ends (jobs made j.serial fun i =>
          if i.state ≠ .waiting then { i with stale := true }
          else if i.relayStep ≠ .verify then { i with stale := false }
          else { i with stale := false, relayStep := .write, stepPass := 0,
                        relay := i.relay.map fun q => { q with verified := false } })) ∧
      ∀ (r : SalvageSector) (slot : Nat),
        j.kind = .salvage → j.state ≠ .settling → j.sectorRec dv.target.sector.val = some r →
        r.status.unresolved = true → r.slot = some slot →
        (∃ q ∈ j.sectors, q.sector ≠ r.sector ∧ q.status.unresolved = true) → ¬ held slot →
        (∀ f, s.board.su.flight = some f → f.job ≠ j.serial ∨ f.sector ≠ r.sector) →
        let b := jobs made j.serial fun i => i.modSector r.sector fun q =>
          { q with status := .superseded, slot := none }
        ends { b with
          exam := true,
          ts := { b.ts with keep := keep.filter (·.1 ≠ slot) },
          su := { b.su with queue := b.su.queue.filter (· ≠ (j.serial, r.sector)) } }

/-- A live transfer or wait ends or begins from inside: the end of an emission whose entry did not change leaves the
buffer (R28); 2 × P in AWAITING_SLOT, fixed at the command's start (log entry 32), ends the command without a transfer,
and the drive is LIVE_IDLE (R19, R71), stated with no channel set up: a relayed READ's time-out also withdraws its
set-up (R61); the end of a RELAY sector's last cell drops the drive's gate, and while it is raised the cells written are 32
zeros, the sync cell and the image's words from bit 15 down, and none while it is down (R2, R4). The opening pulse of a READ's slot (R13,
R19, R26, R28, R58, R61): a VALID buffer of its address is emitted; a fill not complete is abandoned and the READ relayed
and checked; a relayed READ's slot is hunted for its sync; a READ by address passes. The model's own choices in it: log
entries 25 and 35. -/
def Obligations.SlotWaitEnds : Prop :=
  ∀ (d : DriveNo) (s : State),
    let x := s.board.drv d
    let put (x : Drive) : Board := { s.board with drives := s.board.drives.set d x }
    (x.lp.emission ≠ none → x.lp.bufChanged = false →
      Completes (.emissionEnd d) s (put { x with lp := { x.lp with emission := none } })) ∧
    (x.lp.cmd.phase = .awaitingSlot → x.lp.cmd.limit ≤ (s.board.now - x.lp.cmd.started).toNat →
      x.rc.setup = .none → x.da.owner = .liveBusy → x.da.share.pending = none →
      Completes (.awaitingSlotTimeout d) s
        (put { x with
          lp := { x.lp with cmd := .idle },
          da := { x.da with owner := .liveIdle, idleStart := some s.board.now } })) ∧
    (x.da.writing ≠ none → x.da.stopAtEnd = false →
      Completes (.relaySectorWriteEnd d) s
        (put { x with da := { x.da with writing := none, writeImage := [] } })) ∧
    (x.da.writing = none → x.writes = []) ∧
    (x.da.writing ≠ none →
      let image := x.da.writeImage.flatMap fun w => (List.range 16).map fun i => w.getLsbD (15 - i)
      x.writes = List.replicate 32 false ++ true :: image ∧
        (x.da.writeImage.length = 131 → image.length = 2096)) ∧
    ∀ (wp : Bool) (n : Fin 16),
      let a := x.lp.cmd.target
      let rt := x.rt.advance x.profile.sectors
      let opens (c : Course) (lp : LivePath) (rc : Channel) : Board :=
        put { x with
          pins := { x.pins with writeProtect := wp }, rt := rt, rc := rc,
          da := { x.da with writing := none, writeImage := [] },
          lp := { lp with cmd := { x.lp.cmd with phase := .transfer, course := c } } }
      let hunting (shift : Int) (setup : Setup) : Channel :=
        { x.rc with
          shift := shift, setup := setup, slotShift := shift, activity := .hunting, slotNo := a.sector.val,
          slotFor := none, slotBuf := none, notKept := false, run := 0, cells := 0, wordIndex := 0, check := 0,
          header := none, found := false, sound := false }
      x.rc.activity = .idle → x.da.owner = .liveBusy → x.lp.cmd.phase = .awaitingSlot →
      x.lp.cmd.cmd = some (.read n) → a.sector.val = rt.position →
      (x.lp.cmd.course = .emit → x.lp.buf.state = .valid → x.lp.buf.addr = a →
        Completes (.sectorPulse d wp) s
          (opens .emit { x.lp with emission := some x.lp.buf.image, bufChanged := false } x.rc)) ∧
      (x.lp.cmd.course = .emit → x.lp.buf.state = .filling → s.board.captureJob a = none →
        (∀ op ∈ s.board.ts.ops, op.kind = .fill d → op.wrote = []) → (∀ p ∈ s.board.ts.keep, p.2 ≠ .draining) →
        let b := opens .relay { x.lp with buf := .empty }
          (hunting 0 (.live { cyl := a.cyl.val, head := a.head.val, sector := a.sector.val, capture := none }))
        Completes (.sectorPulse d wp) s
          { b with ts := { b.ts with ops := b.ts.ops.filter fun op => op.kind ≠ .fill d } }) ∧
      (∀ ls, x.lp.cmd.course = .relay → x.rc.setup = .live ls → ls.sector = a.sector.val → ls.capture = none →
        Completes (.sectorPulse d wp) s (opens .relay x.lp (hunting x.rc.shift (.live ls)))) ∧
      (x.lp.cmd.course = .plain → Completes (.sectorPulse d wp) s (opens .plain x.lp x.rc))

/-! ### What the drives report -/

/-- The end of a live seek (R17, R18, R71): on cylinder the heads stand at the live cylinder, which is established,
and the seek-fault mark clears; on a seek error the head cylinder is unknown and the position unestablished. The
command ends and the drive is LIVE_IDLE, a pending mode in force. What the controller then sees of a drive (R16): the
drive's own lines and pulses while the engine does not own it, READY low under SALVAGE_ONLY or OFFLINE, and SEEK_ERROR
and WRITE_PROTECT high under their overrides; while the engine owns it ON_CYLINDER and SEEK_ERROR low, READY high unless
under SALVAGE_ONLY, and no pulses. The model's own choice in it: log entry 37: WRITE_PROTECT with the engine at the
drive. -/
def Obligations.LiveSeekEnds : Prop :=
  (∀ (d : DriveNo) (s : State),
     let x := s.board.drv d
     let put (x : Drive) : Board := { s.board with drives := s.board.drives.set d x }
     let idle (da : Arbiter) : Arbiter :=
       { da with
         owner := .liveIdle, idleStart := some s.board.now,
         share := match da.share.pending with
           | some m => { da.share with mode := m, pending := none }
           | none => da.share }
     let ended (ok : Bool) : LivePath :=
       { x.lp with pos := { x.lp.pos with established := ok }, seeking := false, cmd := .idle }
     x.lp.seeking = true → x.lp.cmd.phase = .seeking → x.da.owner = .liveBusy →
     Completes (.driveOnCylinder d) s
       (put { x with pins := { x.pins with onCylinder := true }, lp := ended true,
                     da := idle { x.da with headCyl := some x.lp.pos.cyl, seekFault := false } }) ∧
     Completes (.driveSeekError d) s
       (put { x with pins := { x.pins with seekError := true }, lp := ended false,
                     da := idle { x.da with headCyl := none } })) ∧
  ∀ x : Drive,
    let sal := Decidable.decide (x.da.share.mode = .salvageOnly)
    let protect := x.pins.writeProtect || x.lp.wpOver
    (x.da.owner = .enginePosition ∨ x.da.owner = .enginePass ∨ x.da.owner = .engineRestore →
      x.view = { ready := !sal, onCylinder := false, seekError := false, writeProtect := protect, pulses := false }) ∧
    (x.da.owner = .liveIdle ∨ x.da.owner = .liveBusy ∨ x.da.owner = .taking →
      x.view = { ready := x.pins.ready && !sal, onCylinder := x.pins.onCylinder,
                 seekError := x.pins.seekError || x.lp.seOver, writeProtect := protect, pulses := true }) ∧
    (x.da.owner = .offline →
      x.view = { ready := false, onCylinder := x.pins.onCylinder, seekError := x.pins.seekError || x.lp.seOver,
                 writeProtect := protect, pulses := true })

/-- A drive that drops READY while the engine does not own it and no live READ or WRITE is under way is OFFLINE: its
command and held command end, the position is unestablished and the heads unknown, a pending mode is put in
force, and OFFLINE is raised (R17, R20, R67, R86). One already not READY changes nothing. A drive that raises
READY is LIVE_IDLE with the lost and seek-fault marks cleared, and READY is raised with the time it was away;
after a lost drive an examination follows (R87, R103). A drive OFFLINE for more than 10 s with no job is lost
(R87). Left out of it: a drop while the engine owns the drive or in a live transfer, and a lost drive with jobs. The
model's own choices in it: log entry 20 (ON_CYLINDER and SEEK_ERROR stay as they were) and log entry 3 (a drop of a drive
already not READY changes nothing). -/
def Obligations.ReadyLine : Prop :=
  (∀ (d : DriveNo) (s : State),
     let x := s.board.drv d
     (x.pins.ready = false → Completes (.driveReadyDrop d) s s.board) ∧
     (x.pins.ready = true → x.da.owner.engine = false → x.lp.cmd.phase ≠ .awaitingSlot →
       x.lp.cmd.phase ≠ .transfer → x.rc.setup = .none → x.rc.activity = .idle →
       Completes (.driveReadyDrop d) s
         { s.board with
           out := s.board.out ++ [⟨some d, s.board.now, .offline x.da.owner (x.da.served.map (·.id))⟩],
           drives := s.board.drives.set d { x with
             pins := { x.pins with ready := false },
             rc := { x.rc with offset := .zero, settling := false, shift := 0 },
             lp := { x.lp with cmd := .idle, seeking := false, pos := { x.lp.pos with established := false } },
             da := { x.da with
               owner := .offline, held := false, holdStart := none, limitHit := false, headCyl := none,
               enginePos := none, served := none, passKind := none, slots := 0, atBoundary := false,
               work := .idle, abandon := false, preempted := false, stopAtEnd := false, missed := false,
               writing := none, writeImage := [], offlineStart := some s.board.now,
               share := match x.da.share.pending with
                 | some m => { x.da.share with mode := m, pending := none }
                 | none => x.da.share } } })) ∧
  ∀ (d : DriveNo) (s : State),
    let x := s.board.drv d
    let put (x : Drive) : Board := { s.board with drives := s.board.drives.set d x }
    (∀ t, x.pins.ready = false → x.da.offlineStart = some t →
      Completes (.driveReadyRise d) s
        { put { x with
            pins := { x.pins with ready := true },
            da := { x.da with owner := .liveIdle, idleStart := some s.board.now, offlineStart := none,
                              lost := false, seekFault := false } } with
          out := s.board.out ++ [⟨some d, s.board.now, .ready (some ((s.board.now - t).toNat / 1000))⟩],
          exam := s.board.exam || x.da.lost }) ∧
    (∀ t, x.da.owner = .offline → x.da.lost = false → x.da.offlineStart = some t →
      10000000 < (s.board.now - t).toNat → (∀ j ∈ s.board.re.jobs, j.drive ≠ d) →
      Completes (.offlineLostTimeout d) s (put { x with da := { x.da with lost := true } }))

/-- A sector pulse of a drive (R42): the position advances, to 0 after the last sector, where the revolution count goes
up unless the wrap is suppressed, and the write-protect line is taken. With no slot open nothing else happens. It closes
a live command's slot (R19): the command ends and the drive is LIVE_IDLE, a passed write's gate dropping and an emission
ending with it, while a diversion whose commit has begun goes on. A relayed READ's slot is reported (R31, R63): no
image (the sync mark not found, or the slot closed before the image's end) or an unsound one puts the sector on the
suspect list, and so does a header that differs, with LIVE_MISPLACED; the examination that follows a new entry is made
at the report, before the command ends (R102, R103).
In a READ pass the slot that closes is reported, verified or failed, and a listed slot that opens is read (R62, R79,
R104, R107). The model's own choices in it: log entry 21 (where the examination is made), log entry 35 (the
write-protect line comes with the pulse) and log entry 85 (LIVE_MISPLACED follows the report and its examination). -/
def Obligations.SectorPulseCounts : Prop :=
  ∀ (d : DriveNo) (wp : Bool) (s : State), s.quiet →
    let x := s.board.drv d
    let now := s.board.now
    let sectors := x.profile.sectors
    let rt : Tracker :=
      if sectors ≤ x.rt.position + 1 then
        { x.rt with position := 0, suppress := false,
                    revCount := if x.rt.suppress then x.rt.revCount else (x.rt.revCount + 1) % 2 ^ 32 }
      else { x.rt with position := x.rt.position + 1, suppress := false }
    let quiet : Arbiter := { x.da with writing := none, writeImage := [] }
    let counted (rc : Channel) (lp : LivePath) (da : Arbiter) : Board :=
      { s.board with drives := s.board.drives.set d { x with
          pins := { x.pins with writeProtect := wp }, rt := rt, rc := rc, lp := lp, da := da } }
    let closed : Channel := { x.rc with activity := .idle, slotFor := none, slotBuf := none, notKept := false }
    (x.rc.activity = .idle → x.lp.cmd.phase ≠ .transfer → x.lp.cmd.phase ≠ .awaitingSlot →
      x.da.owner ≠ .enginePass → Completes (.sectorPulse d wp) s (counted x.rc x.lp quiet)) ∧
    (x.lp.cmd.phase = .transfer → x.da.owner = .liveBusy → x.da.share.pending = none →
      let c := x.lp.cmd.course
      let ended (rc : Channel) (lp : LivePath) : Board :=
        counted rc { lp with cmd := .idle, releases := false }
          { quiet with owner := .liveIdle, idleStart := some now }
      (x.rc.activity = .idle →
        (c = .relay ∨ c = .protect ∨ c = .refuse → Completes (.sectorPulse d wp) s (ended x.rc x.lp)) ∧
        ((c = .plain ∨ c = .pass) → x.lp.gate = false ∨ x.lp.releases = false → s.board.filing = none →
          x.lp.autoWait = false → Completes (.sectorPulse d wp) s (ended x.rc { x.lp with gate := false })) ∧
        (c = .emit → x.lp.bufChanged = false →
          Completes (.sectorPulse d wp) s (ended x.rc { x.lp with emission := none })) ∧
        (∀ dv, c = .divert → x.lp.diversion = some dv → dv.committing = true →
          Completes (.sectorPulse d wp) s (counted x.rc x.lp quiet))) ∧
      ∀ ls, x.rc.setup = .live ls → ls.capture = none → c = .relay → x.rc.activity ≠ .idle →
        x.rc.slotBuf = none →
        let a := x.lp.cmd.target
        let image := x.rc.activity = .complete ∧ x.rc.found = true
        let bare := ended { closed with setup := .none, shift := 0 } x.lp
        let entry : Suspect :=
          { track := a.track, mask := sectorSet [a.sector.val], count := 1, first := now, last := now,
            source := .live }
        let b : Board := Board.examine
          { s.board with
            drives := s.board.drives.set d { x with pins := { x.pins with writeProtect := wp } },
            exam := true,
            re := { s.board.re with suspects := s.board.re.suspects ++ [entry] },
            out := [⟨some a.drive, now, .suspectAdded entry⟩] }
        let y := b.drv d
        let suspected (more : List Note) : Board :=
          { b with
            out := b.out ++ more,
            drives := b.drives.set d { y with
              rt := rt, rc := { closed with setup := .none, shift := 0 },
              lp := { y.lp with cmd := .idle, releases := false },
              da := { y.da with writing := none, writeImage := [], owner := .liveIdle, idleStart := some now } } }
        (∀ h, image → x.rc.sound = true → x.rc.header = some (.matched, h) →
          Completes (.sectorPulse d wp) s bare) ∧
        (s.board.trackJob a.track = none → (∀ y ∈ s.board.re.suspects, y.track ≠ a.track) →
          s.board.re.suspects.length < 64 →
          (¬ image → Completes (.sectorPulse d wp) s (suspected [])) ∧
          ∀ (o : HeaderOutcome) (h : Header), image → x.rc.header = some (o, h) →
            (x.rc.sound = false → Completes (.sectorPulse d wp) s (suspected [])) ∧
            (x.rc.sound = true → o ≠ .matched →
              Completes (.sectorPulse d wp) s (suspected [⟨some d, now, .liveMisplaced a h o⟩])))) ∧
    (x.lp.cmd.phase ≠ .transfer → x.lp.cmd.phase ≠ .awaitingSlot → x.da.owner = .enginePass →
      ∀ ps, x.da.passKind = some .read → x.da.atBoundary = false → x.da.stopAtEnd = false →
        x.da.slots < sectors → x.rc.setup = .pass ps → x.rc.slotBuf = none →
        let k := rt.position
        let listed := ps.plans.find? fun p => p.sector = k && !p.acted
        let slot : Arbiter := { quiet with slots := x.da.slots + 1 }
        (listed = none → x.rc.activity = .idle → Completes (.sectorPulse d wp) s (counted x.rc x.lp slot)) ∧
        (∀ p r, listed = some p → p.capture = none → x.da.served = some r →
          let good := x.rc.activity = .complete ∧ x.rc.found = true ∧ x.rc.sound = true ∧
            ∃ h, x.rc.header = some (.matched, h)
          let opened (mask : SectorSet) : Board :=
            counted
              { x.rc with
                setup := .pass { ps with plans := ps.plans.map fun q =>
                  if q.sector = k then { q with acted := true } else q },
                slotShift := x.rc.shift, activity := .hunting, slotNo := k, slotFor := none, slotBuf := none,
                notKept := false, run := 0, cells := 0, wordIndex := 0, check := 0, header := none,
                found := false, sound := false }
              x.lp { slot with surveyMask := mask }
          ((x.rc.activity = .idle ∨ (ps.tag = .survey ∧ good) ∨ (ps.tag = .verify ∧ ¬ good)) →
            Completes (.sectorPulse d wp) s (opened x.da.surveyMask)) ∧
          (x.rc.activity ≠ .idle → ps.tag = .survey → ¬ good →
            Completes (.sectorPulse d wp) s (opened (x.da.surveyMask ||| sectorSet [x.rc.slotNo]))) ∧
          (ps.tag = .verify → good →
            Completes (.sectorPulse d wp) s
              { opened x.da.surveyMask with
                re := { s.board.re with jobs := s.board.re.jobs.map fun i =>
                  if i.serial = r.serial then i.modRelay x.rc.slotNo fun q => { q with verified := true }
                  else i } })))

/-- The opening pulse of a WRITE's slot (R34, R35, R36, R37): a protected drive refuses it; an address not guarded
passes; a guarded one is diverted to the slot of its entry, or to the lowest free keep slot, which is held; with
diversion off, or no slot, a job on the track refuses it with WRITE_PROTECT shown, and otherwise it passes. A write by
address, beyond the profile or under an unestablished position, is neither guarded nor diverted: it is refused with a
job on the track and passes otherwise (R13). The model's own choices in it: log entry 35: the write-protect line comes
with the pulse; log entry 15: while an earlier diversion of the drive still commits, diversion counts as off. -/
def Obligations.WriteSlotOpens : Prop :=
  ∀ (d : DriveNo) (wp : Bool) (n : Fin 16) (s : State),
    let x := s.board.drv d
    let a := x.lp.cmd.target
    let rt := x.rt.advance x.profile.sectors
    let opens (c : Course) (lp : LivePath) : Drive :=
      { x with
        pins := { x.pins with writeProtect := wp }, rt := rt,
        da := { x.da with writing := none, writeImage := [] },
        lp := { lp with cmd := { x.lp.cmd with phase := .transfer, course := c } } }
    let put (x : Drive) : Board := { s.board with drives := s.board.drives.set d x }
    let divert (slot : Nat) : Drive :=
      opens .divert { x.lp with
        buf := { state := .absorbing, addr := a, image := [] },
        diversion := some { target := a, slot := slot, volume := buildVolume x.profile,
                            header := buildHeader a (buildVolume x.profile), gate := false, committing := false,
                            image := [], cleared := false } }
    let off : Board :=
      if (s.board.trackJob a.track).isSome then put (opens .refuse { x.lp with wpOver := true })
      else put (opens .pass x.lp)
    x.rc.activity = .idle → x.da.owner = .liveBusy → x.lp.cmd.phase = .awaitingSlot →
    x.lp.cmd.cmd = some (.write n) → a.sector.val = rt.position →
    (x.lp.cmd.beyond = true →
      Completes (.sectorPulse d wp) s
        (if (s.board.trackJob a.track).isSome then put (opens .refuse { x.lp with wpOver := true })
        else put (opens .plain x.lp))) ∧
    (x.lp.cmd.beyond = false → x.lp.diversion ≠ none →
      Completes (.sectorPulse d wp) s
        (if wp then put (opens .protect x.lp)
        else if s.board.guarded a = false then put (opens .pass x.lp)
        else off)) ∧
    (x.lp.cmd.beyond = false → x.lp.diversion = none → (∀ op ∈ s.board.ts.ops, op.kind ≠ .fill d) →
      (∀ p ∈ s.board.ts.keep, p.2 = .draining → s.board.ts.slotHeld p.1 = true) →
      Completes (.sectorPulse d wp) s
        (if wp then put (opens .protect x.lp)
        else if s.board.guarded a = false then put (opens .pass x.lp)
        else if x.lp.divert then
          match s.board.ts.entry a, s.board.ts.freeKeepSlot with
          | some e, _ => put (divert e.slot)
          | none, some slot => { put (divert slot) with ts :=
              { s.board.ts with keep := putKeep slot .held s.board.ts.keep } }
          | none, none => off
        else off))


/-! ### Rotation tracking -/

/-- An index pulse (R43, R44, R45, R46, R49, R51). In SEARCHING it locks the tracker at the last sector's position. In
LOCKED and FREE_RUN a position other than the last sector is a SLIP: it is corrected, the wrap suppressed when less than
half a revolution had been counted, and the slip counted and raised. In FREE_RUN it locks again, the history and the
in-band run begin anew and INDEX_BACK is raised. In LOCKED the period joins the history and is judged: with doubt clear
an average out of band sets doubt and raises SPEED_DOUBT; with doubt set eight periods in band in a row clear it and
raise SPEED_GOOD, and a LIVE_BUSY drive with a PRESSING eligible job is TAKING (R76). The model's own choice: SLIP is
raised before SPEED_DOUBT (log entry 38). The watchdog expires when more than one and a half average periods (or nominal
ones) have passed in LOCKED: FREE_RUN, speed doubt, INDEX_LOST, and SPEED_DOUBT where doubt was clear (R47, R48). -/
def Obligations.IndexAndWatchdog : Prop :=
  ∀ (d : DriveNo) (s : State),
    let x := s.board.drv d
    let p := x.profile
    let now := s.board.now
    let put (rt : Tracker) : Board := { s.board with drives := s.board.drives.set d { x with rt := rt } }
    (x.rt.state = .searching →
      Completes (.indexPulse d) s
        (put { x.rt with position := p.sectors - 1, suppress := false, state := .locked, lastIndex := some now })) ∧
    (∀ t, x.rt.lastIndex = some t →
      let slips := x.rt.position + 1 ≠ p.sectors
      let fixed : Tracker :=
        { x.rt with
          position := p.sectors - 1,
          suppress := Decidable.decide (slips ∧ x.rt.position < p.sectors / 2),
          slipCount := if slips then (x.rt.slipCount + 1) % 65536 else x.rt.slipCount }
      let slipNote : List Note :=
        if slips then
          [⟨some d, now, .slip false x.rt.position (p.sectors - 1) (some fixed.suppress) x.rt.revCount fixed.slipCount⟩]
        else []
      let period := (now - t).toNat
      let history := (x.rt.history ++ [period]).drop (x.rt.history.length - 7)
      let average := if history.length = 8 then some (history.sum / 8) else none
      let run := if p.inSpeedBand period then min 8 (x.rt.inBand + 1) else 0
      let judged (doubt : Bool) : Tracker :=
        { fixed with history := history, lastIndex := some now, inBand := run, doubt := doubt }
      (x.rt.state = .freeRun →
        Completes (.indexPulse d) s
          { put { fixed with history := [], inBand := 0, lastIndex := some now, state := .locked } with
            out := s.board.out ++ slipNote ++ [⟨some d, now, .indexBack period x.rt.revCount⟩] }) ∧
      (x.rt.state = .locked → x.rt.history.length ≤ 8 →
        (x.rt.doubt = false → (∀ a, average = some a → p.inSpeedBand a = true) →
          Completes (.indexPulse d) s { put (judged false) with out := s.board.out ++ slipNote }) ∧
        (∀ a, x.rt.doubt = false → average = some a → p.inSpeedBand a = false →
          Completes (.indexPulse d) s
            { put (judged true) with
              out := s.board.out ++ slipNote ++ [⟨some d, now, .speedDoubt false (some a)⟩] }) ∧
        (x.rt.doubt = true → run < 8 →
          Completes (.indexPulse d) s { put (judged true) with out := s.board.out ++ slipNote }) ∧
        (∀ a, x.rt.doubt = true → run = 8 → average = some a →
          let presses := s.board.re.jobs.any fun j =>
            j.drive = d && j.state = .waiting && j.level = .pressing && j.needsPass
          Completes (.indexPulse d) s
            { s.board with
              drives := s.board.drives.set d { x with
                rt := judged false,
                da := if x.da.owner = .liveBusy ∧ presses ∧
                    (x.da.share.mode = .liveFirst ∨ x.da.share.mode = .salvageFirst) then
                    { x.da with owner := .taking }
                  else x.da },
              out := s.board.out ++ slipNote ++ [⟨some d, now, .speedGood a⟩] }))) ∧
    (∀ t, x.rt.state = .locked → x.rt.lastIndex = some t →
      3 * x.rt.average.getD p.period < 2 * (now - t).toNat →
      Completes (.indexWatchdogExpiry d) s
        { put { x.rt with state := .freeRun, inBand := 0, doubt := true } with
          out := s.board.out ++ [⟨some d, now, .indexLost t x.rt.revCount⟩] ++
            if x.rt.doubt then [] else [⟨some d, now, .speedDoubt true x.rt.average⟩] })

/-! ### The read channel -/

/-- A cell reads as 1 where a transition lies in its data window, which is positions 8 to 23 of the cell moved by the
shift, and as 0 elsewhere (R55). The hunt for the sync mark (R3, R58): a 1 bit after at least 24 zeros within the first 400 cells is the sync cell
and the image is read from the next cell; 400 cells without one end the slot with no image. Where the sync cell is
found: the frames before it hold no cell that follows at least 24 zeros with a 1, it is such a cell itself, and it is
the only one that ends the hunt (R3, R58). The model's own choices in it: log entry 5: the frames read come with the
event. -/
def Obligations.SyncHunt : Prop :=
  (∀ (shift : Int) (f : CellFrame),
    cellBit shift f = true ↔
      ∃ t : Nat, t < 32 ∧ f.getLsbD t = true ∧ 8 + shift ≤ (t : Int) ∧ (t : Int) ≤ 23 + shift) ∧
  (∀ (d : DriveNo) (frames : List CellFrame) (s : State),
     let x := s.board.drv d
     let put (rc : Channel) : Board := { s.board with drives := s.board.drives.set d { x with rc := rc } }
     x.rc.activity = .hunting →
     (x.rc.cells + frames.length ≤ 400 →
       syncCell x.rc.slotShift x.rc.run x.rc.cells frames = some (x.rc.cells + frames.length) →
       Completes (.syncFound d frames) s
         (put { x.rc with
           activity := .reading, run := 24, cells := x.rc.cells + frames.length, wordIndex := 0,
           check := 0, lastFrame := frames.getLastD x.rc.lastFrame })) ∧
     (x.rc.cells + frames.length = 400 →
       syncCell x.rc.slotShift x.rc.run x.rc.cells frames = none →
       Completes (.syncHuntLimit d frames) s
         (put { x.rc with
           activity := .complete, found := false, cells := 400,
           run := runAfter x.rc.slotShift x.rc.run frames,
           lastFrame := frames.getLastD x.rc.lastFrame }))) ∧
  ∀ (shift : Int) (run n m : Nat) (frames : List CellFrame), run ≤ 24 →
    (syncCell shift run n frames = some m ↔
      ∃ (before after : List CellFrame) (f : CellFrame),
        frames = before ++ f :: after ∧ m = n + before.length + 1 ∧ cellBit shift f = true ∧
        24 ≤ runAfter shift run before ∧
        ∀ (b1 b2 : List CellFrame) (g : CellFrame), before = b1 ++ g :: b2 →
          cellBit shift g = true → runAfter shift run b1 < 24)

/-- The header words and the image of a slot (R5, R6, R7, R59, R60). The words are assembled from their cells and enter
the running check; words 0 and 1 make the header test; the image's end makes the slot COMPLETE with its soundness and
capture time. In CAPTURE mode the receiving buffer takes the words and their qualities: the least of the cell margins
of a word's 16 cells (R56, R57). A sound image with the expected cylinder and head, format 0 and another sector number
below S is a header resync (R50): while the position is still the slot's number it becomes the header's, and a SLIP is
counted and raised (R51); else nothing follows. The model's own choices in it: log entry 5: the frames read come with
the event. -/
def Obligations.ImageRead : Prop :=
  ∀ (d : DriveNo) (frames : List CellFrame) (cyl head : Nat) (s : State),
    let x := s.board.drv d
    let shift := x.rc.slotShift
    let word (i : Nat) : Word := wordOfBits (((frames.drop (16 * i)).take 16).map (cellBit shift))
    let between (lo hi : Int) (f : CellFrame) : List Nat :=
      (List.range 32).filter fun t => f.getLsbD t ∧ lo ≤ (t : Int) ∧ (t : Int) ≤ hi
    let margin (before f : CellFrame) : Nat :=
      let data := match between (8 + shift) (23 + shift) f with
        | [] => 7
        | [t] => min ((t : Int) - (8 + shift)).toNat (15 - ((t : Int) - (8 + shift)).toNat)
        | _ => 0
      let strays := (between 4 27 f).filter fun t => (t : Int) < 8 + shift ∨ 23 + shift < (t : Int)
      if (between 28 31 before).length + (between 0 3 f).length ≠ 1 then 0
      else (strays.map fun t =>
        let dist := if (t : Int) < 8 + shift then 8 + shift - t else (t : Int) - (23 + shift)
        min 7 (dist - 1).toNat).foldl min data
    let frame (n : Nat) : CellFrame := if n = 0 then x.rc.lastFrame else frames.getD (n - 1) 0
    let quality (i : Nat) : Nat :=
      ((List.range 16).map fun c => margin (frame (16 * i + c)) (frame (16 * i + c + 1))).foldl min 7
    let taken (n : Nat) (rc : Channel) : Channel :=
      let add (y : CaptureBuffer) : CaptureBuffer :=
        { y with words := y.words ++ (List.range n).map word, quals := y.quals ++ (List.range n).map quality }
      match x.rc.slotBuf with
      | none => rc
      | some 0 => { rc with buf0 := add x.rc.buf0 }
      | some 1 => { rc with buf1 := add x.rc.buf1 }
    let put (rc : Channel) (rt : Tracker) : Board :=
      { s.board with drives := s.board.drives.set d { x with rc := rc, rt := rt } }
    x.rc.activity = .reading → x.rc.setup.expects = some (cyl, head) →
    (x.rc.wordIndex = 0 → frames.length = 32 →
      let h := readHeader (word 0) (word 1)
      Completes (.headerWordsRead d frames) s
        (put { taken 2 x.rc with
            wordIndex := 2, check := (word 0).rotateLeft 1 + word 1,
            lastFrame := frames.getLastD x.rc.lastFrame,
            header := some (headerTest x.profile cyl head x.rc.slotNo h, h) } x.rt)) ∧
    ∀ (o : HeaderOutcome) (h : Header), x.rc.wordIndex = 2 → frames.length = 2064 → x.rc.header = some (o, h) →
      let sum := ((List.range 128).map word).foldl rotAdd x.rc.check
      let read : Channel :=
        { taken 129 x.rc with
          check := sum, wordIndex := 130, lastFrame := frames.getLastD x.rc.lastFrame, activity := .complete,
          found := true, sound := sum = word 128, capTime := s.board.now }
      let resync := sum = word 128 ∧ h.cyl = cyl ∧ h.head = head ∧ h.format = 0 ∧ h.sector < x.profile.sectors ∧
        h.sector ≠ x.rc.slotNo ∧ x.rt.position = x.rc.slotNo
      (¬ resync → Completes (.imageComplete d frames) s (put read x.rt)) ∧
      (resync →
        let slips := (x.rt.slipCount + 1) % 65536
        Completes (.imageComplete d frames) s
          { put read { x.rt with position := h.sector, slipCount := slips } with
            out := s.board.out ++ [⟨some d, s.board.now,
              .slip true x.rt.position h.sector none x.rt.revCount slips⟩] })

/-! ### The arbiter -/

/-- The movements of a positioning. An offset settled with ON_CYLINDER 1 ms or more after it was asked, with the heads
at the pass's cylinder unknown, goes on to a RECALIBRATE (R68, R77), and a RECALIBRATE that ends on cylinder to the seek
to the pass's cylinder. An offset fault, or 500 ms without the end of a seek or of a RECALIBRATE, is a seek failure and
is counted (R77, R78): with the retry unused and fewer than three counted, a RECALIBRATE is sent; with the retry used the
positioning is abandoned and the job WAITING again, its counters but that one as they were; the third finishes the job
SEEK_FAILED, a RELAY FAILED for SEEK, stated with nothing recovered or captured, its reserved slots FREE (R108, R112).
The restore then begins with a seek, since the head cylinder is UNKNOWN, where a command is held, LIVE_ONLY is pending or
the drive is under speed doubt (R72, R75, R80, R84). A restore's movement that has not ended after 500 ms (R84, R85): the
first seek is retried after a RECALIBRATE; a failure of the RECALIBRATE, or of the second seek, is a seek fault: the
drive is LIVE_IDLE, its head cylinder unknown and its position unestablished, and SEEK_FAULT is raised. The model's own
choices in it: log entries 20 and 25, log entry 50 (the head cylinder is UNKNOWN from the first failed seek of a restore
on) and log entry 35 (ON_CYLINDER comes with the settle timer). -/
def Obligations.MovementTimers : Prop :=
  (∀ (d : DriveNo) (s : State),
     let x := s.board.drv d
     let now := s.board.now
     let sent (w : Work) (rc : Channel) (da : Arbiter) : Drive :=
       { x with pins := { x.pins with onCylinder := false, seekError := false }, rc := rc,
                da := { da with work := w, workAt := now } }
     let put (x : Drive) : Board := { s.board with drives := s.board.drives.set d x }
     let jobs (serial : Nat) (f : Job → Job) (x : Drive) : Board :=
       { put x with re := { s.board.re with jobs := s.board.re.jobs.map fun i =>
           if i.serial = serial then (f i) else i } }
     let failed (serial : Nat) (x : Drive) : Board :=
       jobs serial (fun j => { j with seekFails := min 3 (j.seekFails + 1) }) x
     (x.rc.settling = true → 1000 ≤ (now - x.rc.offsetAt).toNat → x.da.work = .offsetOff →
       x.da.abandon = false → x.da.preempted = false → x.da.headCyl = none →
       Completes (.offsetSettleTimer d true) s
         (put (sent .recal { x.rc with settling := false } x.da))) ∧
     (x.lp.seeking = false → x.da.work = .recal ∨ x.da.work = .retryRecal →
       x.da.abandon = false → x.da.preempted = false → x.da.plan.cyl ≠ 0 →
       Completes (.driveOnCylinder d) s
         (put (sent .seek x.rc { x.da with headCyl := some 0, seekFault := false }))) ∧
     ∀ j r, x.da.served = some r → s.board.job r.serial = some j → x.da.abandon = false → x.da.preempted = false →
       let moving := (x.da.work = .recal ∨ x.da.work = .seek ∨ x.da.work = .retryRecal) ∧
         500000 ≤ (now - x.da.workAt).toNat
       let lost : Arbiter := { x.da with headCyl := none }
       (j.seekFails < 2 → x.da.retryUsed = false →
         (x.rc.settling = true → 100000 ≤ (now - x.rc.offsetAt).toNat → x.da.work = .offsetOn →
           Completes (.offsetFaultTimeout d) s
             (failed j.serial (sent .retryRecal x.rc { x.da with retryUsed := true }))) ∧
         (moving →
           Completes (.engineSeekTimeout d) s
             (failed j.serial (sent .retryRecal x.rc { lost with retryUsed := true })))) ∧
       (moving → s.quiet → x.rc.offset = .zero →
         x.da.held = true ∨ x.da.share.pending = some .liveOnly ∨
           (x.da.share.pending = none ∧ x.rt.doubt = true) →
         let back : Drive := Drive.restoring { x with da := lost } now
         (∀ st, j.seekFails < 2 → x.da.retryUsed = true → j.kind = .salvage → j.exhausted = false →
           s.board.re.ladder[j.step]? = some st → j.passes < st.passes →
           (∃ q ∈ j.sectors, q.status.unresolved = true) →
           Completes (.engineSeekTimeout d) s
             (jobs j.serial (fun _ => { j with seekFails := j.seekFails + 1, state := .waiting, level := .patient,
                                               since := now }) back)) ∧
         (2 ≤ j.seekFails → s.board.noAuto → s.board.noSolve j.serial → j.written = false →
           (∀ q ∈ j.sectors, q.best = none ∧ q.caps = []) → (∀ q ∈ j.relay, q.aside = none ∧ q.image = none) →
           s.board.ts.ops = [] → (∀ e, (s.board.drv e).lp.diversion = none) →
           Completes (.engineSeekTimeout d) s
             { put back with
               out := [⟨some j.drive, now, .jobDone { j with seekFails := 3 }
                 (if j.kind = .relay then .failedSeek else .seekFailed)⟩],
               re := { s.board.re with jobs := s.board.re.jobs.filter (·.serial ≠ j.serial) },
               ts := { s.board.ts with
                 keep := s.board.ts.keep.filter fun p => ∀ q ∈ j.sectors, q.slot ≠ some p.1 } }))) ∧
  ∀ (d : DriveNo) (s : State),
    let x := s.board.drv d
    let now := s.board.now
    let put (x : Drive) : Board := { s.board with drives := s.board.drives.set d x }
    500000 ≤ (now - x.da.workAt).toNat →
    (x.da.work = .restoreSeek → x.da.second = false →
      Completes (.restoreSeekTimeout d) s
        (put { x with pins := { x.pins with onCylinder := false, seekError := false },
                      da := { x.da with headCyl := none, work := .restoreRecal, workAt := now } })) ∧
    (x.da.work = .restoreRecal ∨ (x.da.work = .restoreSeek ∧ x.da.second = true) →
      x.lp.cmd.phase ≠ .held →
      Completes (.restoreSeekTimeout d) s
        { put { x with
            lp := { x.lp with pos := { x.lp.pos with established := false } },
            da := { x.da with seekFault := true, headCyl := none, enginePos := none, served := none,
                              work := .idle, owner := .liveIdle, idleStart := some now, held := false,
                              holdStart := none, limitHit := false, preempted := false } } with
          out := s.board.out ++ [⟨some d, now, .seekFault x.lp.pos.cyl x.lp.pos.head⟩] })

/-- A take (R75, R76, R77, R93): of the eligible jobs the drive goes to the chosen one. A job is eligible on its drive
while it is WAITING and needs a pass, the tracker's speed doubt is clear and LIVE_ONLY is not in force. The choice is
PRESSING before PATIENT, then the nearest cylinder, the head cylinder taken as 0 while UNKNOWN, then the earlier filing;
there is none where no job is eligible. The chosen SALVAGE, its step asking for no offset, at a drive with no offset on
and the heads not at the track's cylinder, becomes ACTIVE and PATIENT, the arbiter enters ENGINE_POSITION with the step's
settings, and a RECALIBRATE is sent where the step, the job's mark or an UNKNOWN head cylinder asks for one, else the
seek. Under LIVE_FIRST and SALVAGE_FIRST the idle grace must have run out, or the job be PRESSING, as the starve limit
makes one (R74); under SALVAGE_ONLY neither. Between passes the engine keeps the drive in the same way (R80): at the
closing pulse that ends a pass (R79), with no command held, the job chosen among those then eligible is served next,
whether the job served is gone or, a SALVAGE with a further pass to make, WAITING again and among them. The model's own
choices in it: log entries 20, 25, 35 and 70 (SALVAGE_ONLY takes a PATIENT job under the seek-fault mark too). -/
def Obligations.TakeMade : Prop :=
  (∀ (b : Board) (d : DriveNo) (j : Job),
    let needs : Prop := match j.kind with
      | .salvage => j.exhausted = false ∧ ∃ q ∈ j.sectors, q.status.unresolved = true
      | .survey => j.curCyl ≤ j.endCyl.val
      | .relay => True
    (b.eligible d j = true ↔
      j.drive = d ∧ j.state = .waiting ∧ needs ∧ (b.drv d).rt.doubt = false ∧ (b.drv d).da.share.mode ≠ .liveOnly) ∧
    (b.choose d = none ↔ ∀ i ∈ b.re.jobs, b.eligible d i = false) ∧
    ∀ before after : List Job, b.re.jobs = before ++ j :: after → b.eligible d j = true →
      let far (i : Job) : Nat :=
        let c : Int := if i.kind = .survey then i.curCyl else i.cyl.val
        let head : Int := match (b.drv d).da.headCyl with
          | some n => n.val
          | none => 0
        (c - head).natAbs
      let beats (i k : Job) : Prop :=
        (i.level = .pressing ∧ k.level = .patient) ∨ (i.level = k.level ∧ far i < far k)
      (∀ i ∈ before, b.eligible d i = true → beats j i) → (∀ i ∈ after, b.eligible d i = true → ¬ beats i j) →
      b.choose d = some j) ∧
  ∀ (d : DriveNo) (j : Job) (st : LadderStep) (s : State),
    let x := s.board.drv d
    let now := s.board.now
    let shared := x.da.share.mode = .liveFirst ∨ x.da.share.mode = .salvageFirst
    let jobs (serial : Nat) (f : Job → Job) (b : Board) : Board :=
      { b with re := { b.re with jobs := b.re.jobs.map fun i => if i.serial = serial then f i else i } }
    let taken (b : Board) : Board :=
      let y := b.drv d
      jobs j.serial (fun _ => { j with state := .active, level := .patient, recal := false })
        { b with drives := b.drives.set d { y with
          pins := { y.pins with onCylinder := false, seekError := false },
          da := { y.da with
            owner := .enginePosition, served := some { serial := j.serial, id := j.id }, retryUsed := false,
            abandon := false, preempted := false, passKind := none,
            work := if st.recal || j.recal || x.da.headCyl.isNone then .recal else .seek, workAt := now,
            plan := { cyl := j.cyl.val, head := j.head.val, shift := st.shift, offset := .zero,
                      recal := st.recal || j.recal } } } }
    x.rc.offset = .zero → x.da.headCyl ≠ some j.cyl → j.kind = .salvage → s.board.re.ladder[j.step]? = some st →
    st.offset = .zero →
    (x.da.owner = .liveIdle → s.board.job j.serial = some j →
      (∀ i ∈ s.board.re.jobs, i.serial = j.serial → i = j) →
      (s.board.choose d = some j →
        (∀ t, shared → x.da.seekFault = false → s.board.pressing d = false → x.da.idleStart = some t →
          x.da.share.grace * 1000 ≤ (now - t).toNat → Completes (.idleGraceExpiry d) s (taken s.board)) ∧
        (x.da.share.mode = .salvageOnly → Completes (.take d) s (taken s.board)) ∧
        (shared → s.board.pressing d = true → Completes (.take d) s (taken s.board))) ∧
      ∀ id : Byte, s.board.jobById id.toNat = some j → j.drive = d → j.state = .waiting → j.level = .patient →
        x.da.share.starve * 1000 < (now - j.since).toNat → shared →
        let pressed := jobs j.serial (fun i => { i with level := .pressing }) s.board
        pressed.pressing d = true → pressed.choose d = some { j with level := .pressing } →
        Completes (.starveLimitExpiry id) s (taken pressed)) ∧
    ∀ (wp : Bool) (r : JobRef) (b : Board),
      s.quiet → x.passCloses → s.board.noWriteFill d → x.da.surveyMask = 0 → x.da.served = some r →
      x.da.held = false → x.da.share.pending = none →
      let y := x.passPulsed wp
      let pulsed : Board :=
        { s.board with drives := s.board.drives.set d { y with da := { y.da with
            passKind := none, slots := 0, atBoundary := false, stopAtEnd := false, missed := false } } }
      let again := ∃ (i : Job) (step : LadderStep),
        s.board.job r.serial = some i ∧ i.kind = .salvage ∧ i.exhausted = false ∧
          s.board.re.ladder[i.step]? = some step ∧ i.passes + 1 < step.passes ∧
          (∃ q ∈ i.sectors, q.status.unresolved = true) ∧ x.profile.sectors ≤ x.da.slots ∧ x.da.missed = false ∧
          b = jobs r.serial (fun _ => { i with
            passes := i.passes + 1, total := min 65535 (i.total + 1), state := .waiting, level := .patient,
            since := now }) pulsed
      ((s.board.job r.serial = none ∧ b = pulsed) ∨ again) →
      b.choose d = some j → (∀ i ∈ b.re.jobs, i.serial = j.serial → i = j) →
      Completes (.sectorPulse d wp) s (taken b)

/-- A WAITING job whose wait exceeds its drive's starve limit becomes PRESSING, in every state of the drive's arbiter
(R74): in LIVE_BUSY under LIVE_FIRST or SALVAGE_FIRST the arbiter is then TAKING; in LIVE_IDLE the take of TakeMade
follows, unless the job is not eligible (R75, R76). A command held for the hold limit stops the engine (R83): a
positioning at its next step; a READ pass, or a WRITE pass between two sectors, at once, as abandoned, its write-buffer
fill withdrawn, and the restore begins; a WRITE pass in a sector at the sector's end; a restore goes on; HOLD_LIMIT is
raised once: with the limit already hit, with no command held, before the limit, and while a live command is awaited or
under way, nothing happens. The READ pass is stated for a SALVAGE that needs a further pass, the WRITE pass for a RELAY
that has a source, each at a drive with the heads elsewhere (R84). The model's own choices in it: log entries 20, 25 and
40. -/
def Obligations.LimitsExpire : Prop :=
  ∀ s : State,
    (∀ (id : Byte) (j : Job), s.board.jobById id.toNat = some j → j.state = .waiting → j.level = .patient →
      let x := s.board.drv j.drive
      let da := x.da
      let pressed (b : Board) : Board :=
        { b with re := { b.re with jobs := b.re.jobs.map fun i =>
            if i.serial = j.serial then { i with level := .pressing } else i } }
      let never := da.share.mode = .liveOnly ∨ x.rt.doubt = true
      da.share.starve * 1000 < (s.board.now - j.since).toNat →
      ((da.owner ≠ .liveIdle ∧ da.owner ≠ .liveBusy) ∨ (da.owner = .liveBusy ∧ da.share.mode = .salvageOnly) ∨
          never →
        Completes (.starveLimitExpiry id) s (pressed s.board)) ∧
      (da.owner = .liveBusy → ¬ never → da.share.mode ≠ .salvageOnly → j.needsPass = true →
        Completes (.starveLimitExpiry id) s
          (pressed { s.board with
            drives := s.board.drives.set j.drive { x with da := { da with owner := .taking } } })) ∧
      (da.owner = .liveIdle →
        exec (.starveLimitExpiry id) s = exec (.take j.drive) { s with board := pressed s.board })) ∧
    ∀ d : DriveNo,
      let x := s.board.drv d
      let now := s.board.now
      (x.da.held = false ∨ x.da.limitHit = true ∨
          (∀ t, x.da.holdStart = some t → (now - t).toNat < x.da.share.hold * 1000) ∨
          x.da.owner = .liveIdle ∨ x.da.owner = .liveBusy ∨ x.da.owner = .taking ∨ x.da.owner = .offline →
        Completes (.holdLimitExpiry d) s s.board) ∧
      ∀ t : Time,
      let raised (what : Stopped) (served : Option Nat) (x : Drive) : Board :=
        { s.board with drives := s.board.drives.set d x,
                       out := s.board.out ++ [⟨some d, now, .holdLimit served what t⟩] }
      let stop (what : Stopped) (served : Option Nat) (da : Arbiter) : Board :=
        raised what served { x with da := { da with limitHit := true } }
      let ended : Arbiter :=
        { x.da with limitHit := true, surveyMask := 0, wbuf := .empty, writing := none, writeImage := [] }
      let id := x.da.served.map (·.id)
      let waits (serial : Nat) (j : Job) : Engine :=
        { s.board.re with jobs := s.board.re.jobs.map fun i =>
            if i.serial = serial then
              { j with total := min 65535 (j.total + 1), abandoned := min 65535 (j.abandoned + 1),
                       state := .waiting, level := .patient, since := now }
            else i }
      x.da.held = true → x.da.limitHit = false → x.da.holdStart = some t →
      x.da.share.hold * 1000 ≤ (now - t).toNat →
      (x.da.owner = .enginePosition →
        Completes (.holdLimitExpiry d) s (stop .position id { x.da with preempted := true })) ∧
      (∀ (r : JobRef) (j : Job) (st : LadderStep), s.quiet →
        x.da.owner = .enginePass → x.da.passKind = some .read → x.rc.activity ≠ .complete → x.rc.slotBuf = none →
        x.da.surveyMask = 0 → x.rc.offset = .zero → x.da.headCyl ≠ some x.lp.pos.cyl →
        x.da.served = some r → s.board.job r.serial = some j → j.kind = .salvage →
        j.exhausted = false → s.board.re.ladder[j.step]? = some st → j.passes < st.passes →
        (∃ q ∈ j.sectors, q.status.unresolved = true) →
        (∀ ps, x.rc.setup = .pass ps → ∀ q ∈ ps.plans, q.acted = true ∨ q.capture = none) →
        (∀ ls, x.rc.setup ≠ .live ls) → s.board.noWriteFill d →
        let rc : Channel :=
          { x.rc with
            activity := .idle, setup := .none, shift := 0,
            slotFor := if x.rc.activity = .idle then x.rc.slotFor else none,
            notKept := x.rc.activity = .idle && x.rc.notKept }
        Completes (.holdLimitExpiry d) s
          { raised .pass id (Drive.restoring { x with rc := rc, da := ended } now) with re := waits r.serial j }) ∧
      (∀ (r : JobRef) (j : Job), s.quiet →
        x.da.owner = .enginePass → x.da.passKind = some .write → x.da.writing = none → x.rc.setup = .none →
        x.da.surveyMask = 0 → x.rc.offset = .zero → x.da.headCyl ≠ some x.lp.pos.cyl →
        x.da.served = some r → s.board.job r.serial = some j → j.kind = .relay → j.relayStep = .write →
        j.fatal = false →
        let fill (op : StoreOp) : Bool := match op.kind with
          | .writeFill e _ _ => e = d
          | _ => false
        (∀ op ∈ s.board.ts.ops, fill op = true → op.wrote = []) → (∀ p ∈ s.board.ts.keep, p.2 ≠ .draining) →
        Completes (.holdLimitExpiry d) s
          { raised .write id (Drive.restoring { x with rc := { x.rc with shift := 0 }, da := ended } now) with
            re := waits r.serial { j with stale := false },
            ts := { s.board.ts with ops := s.board.ts.ops.filter (!fill ·) } }) ∧
      (x.da.owner = .enginePass → x.da.passKind = some .write → x.da.writing ≠ none →
        Completes (.holdLimitExpiry d) s (stop .write id { x.da with stopAtEnd := true })) ∧
      (x.da.owner = .engineRestore → Completes (.holdLimitExpiry d) s (stop .none none x.da))

/-! ### The solve unit -/

/-- A solve starts at the head of the queue when none is in flight (R113, R115): K and the threshold are read, the held
captures of the pair's set, the earliest by capture time first, form the snapshot and each is locked, and the read of
each one's slot is requested. A snapshot read that ends while others are still to be read adds the words and
qualities to its capture, and its slot is no longer held for it (R115). The last one leads at once to the vote, the
search and the header test over the snapshot, by its K and threshold and the drive's profile (R116..R121); a graded
result that the job accepts, or that ranks no lower than the sector's best, is delivered: the write of its image with its
confidences into the reserved slot is requested (R122, R124). The model's own choice in it: log entry 74 (a quality read
above 7 enters the vote as it reads). -/
def Obligations.Snapshot : Prop :=
  (∀ (j : Job) (r : SalvageSector) (rest : List (Nat × Nat)) (s : State),
     s.board.su.flight = none → s.board.su.queue = (j.serial, r.sector) :: rest →
     s.board.job j.serial = some j → j.sectorRec r.sector = some r → (∃ c ∈ r.caps, c.held = true) →
     let now := s.board.now
     let read (m : Member) : StoreOp :=
       { kind := .solveRead, slot := m.slot, at_ := now, todo := slotReads m.slot Config.slotCells,
         got := [], syn := [], double := false, wrote := [], spoiled := false, lastAt := now }
     ∃ ms : List Member,
       ms.Perm ((r.caps.filter (·.held)).map fun c =>
         { slot := c.slot, time := c.time, tag := c.tag, passNo := c.passNo, data := none }) ∧
       ms.Pairwise (fun m n => (now - n.time).toNat ≤ (now - m.time).toNat) ∧
       Completes .solveStart s
         { s.board with
           su := { s.board.su with
             queue := rest,
             flight := some
               { job := j.serial, sector := r.sector, k := s.board.su.k, threshold := s.board.su.threshold,
                 phase := .reading, requeue := false, discard := false, superseded := false, snapshot := ms } },
           re := { s.board.re with jobs := s.board.re.jobs.map fun i =>
             if i.serial = j.serial then i.modSector r.sector fun q =>
               { q with caps := q.caps.map fun c => { c with lock := c.held || c.lock } }
             else i },
           ts := { s.board.ts with ops := s.board.ts.ops ++ ms.map read } }) ∧
  (∀ (f : Flight) (op : StoreOp) (s : State),
    s.board.su.flight = some f → f.phase = .reading →
    s.board.ts.ops.find? (fun o => o.kind = .solveRead && o.slot = op.slot && o.todo.isEmpty) = some op →
    (∃ m ∈ f.snapshot, m.slot ≠ op.slot ∧ m.data = none) →
    (∀ p ∈ s.board.ts.keep, p.2 ≠ .draining) → (∀ n ∈ s.board.ts.writeRec, n < Config.keepSlots) →
    Config.keepSlots ≤ op.slot →
    Completes (.snapshotReadComplete op.slot) s
      { s.board with
        su := { s.board.su with flight := some { f with snapshot := f.snapshot.map fun m =>
          if m.slot = op.slot then
            { m with data := some (unpackWords (op.got.take 66), unpackValues (op.got.drop 66)) }
          else m } },
        ts := { s.board.ts with
          ops := s.board.ts.ops.filter fun o => !(o.kind = .solveRead && o.slot = op.slot) } }) ∧
  ∀ (f : Flight) (op : StoreOp) (j : Job) (r : SalvageSector) (x : Result) (slot : Nat) (s : State),
    let ms := f.snapshot.map fun m =>
      if m.slot = op.slot then
        { m with data := some (unpackWords (op.got.take 66), unpackValues (op.got.drop 66)) }
      else m
    s.board.su.flight = some f → f.phase = .reading →
    s.board.ts.ops.find? (fun o => o.kind = .solveRead && o.slot = op.slot && o.todo.isEmpty) = some op →
    (∀ m ∈ f.snapshot, m.slot = op.slot ∨ m.data ≠ none) →
    (∀ p ∈ s.board.ts.keep, p.2 ≠ .draining) → (∀ n ∈ s.board.ts.writeRec, n < Config.keepSlots) →
    Config.keepSlots ≤ op.slot →
    s.board.job f.job = some j → j.sectorRec f.sector = some r → r.slot = some slot →
    solveSnapshot (s.board.drv j.drive).profile j.cyl.val j.head.val f.sector f.k f.threshold
      (ms.filterMap (·.data)) = .graded x →
    (x.rating.grade.meets j.accept = true ∨ ∀ y, r.best = some y → x.rating.cmp y.rating ≠ .lt) →
    Completes (.snapshotReadComplete op.slot) s
      { s.board with
        su := { s.board.su with flight := some { f with snapshot := ms, phase := .delivering x } },
        ts := { s.board.ts with
          ops := (s.board.ts.ops.filter fun o => !(o.kind = .solveRead && o.slot = op.slot)) ++
            [{ kind := .delivery, slot := slot, at_ := s.board.now, todo := slotWrites slot x.image x.confs,
               got := [], syn := [], double := false, wrote := [], spoiled := false, lastAt := s.board.now }] } }

/-- The vote of one sound capture (R116, R117, R121): each bit is the capture's own with its word's quality as
confidence, no bit is inverted, and the grade is A or B as the least quality reaches the threshold or not. The vote of
several (R116): the sum of the qualities, each with its bit's sign, decides; at a sum of 0 the bit of the earliest capture
of the highest quality does; the confidence is the sum's absolute value. The weak bits (R118) are the first K in the
order of confidence, and of place among equals. The search (R117, R119): a sound voted image is the match; otherwise the
first size with a sound candidate gives the match where it has one and AMBIGUOUS with their count where it has more, and
with none up to K the solve is UNMATCHED. The candidates of a size are the voted image with the bits of each mask of that
many positions inverted. -/
def Obligations.SingleCaptureSolve : Prop :=
  (∀ (p : Profile) (cyl head sector k threshold : Nat) (img : List Word) (quals : List Nat),
     img.length = 131 → quals.length = 131 → (∀ q ∈ quals, 1 ≤ q ∧ q ≤ 7) → soundImage img = true →
     headerTest p cyl head sector (imageHeader img) = .matched →
     ∃ confs, solveSnapshot p cyl head sector k threshold [(img, quals)] = .graded
       { rating := { grade := if threshold ≤ quals.foldl min 56 then .a else .b, flips := 0,
                     minConf := quals.foldl min 56, used := 1 },
         image := img, confs := confs } ∧ confs = quals) ∧
  (∀ votes : List (Bool × Nat),
     let sum : Int := (votes.map fun v => if v.1 then (v.2 : Int) else -(v.2 : Int)).sum
     (voteBit votes).2 = sum.natAbs ∧ (0 < sum → (voteBit votes).1 = true) ∧ (sum < 0 → (voteBit votes).1 = false) ∧
       ∀ before v after, votes = before ++ v :: after → sum = 0 → (∀ u ∈ before, u.2 < v.2) →
         (∀ u ∈ after, u.2 ≤ v.2) → (voteBit votes).1 = v.1) ∧
  (∀ (k : Nat) (bits : List VotedBit), ∃ ranked : List (VotedBit × Nat),
     ranked.Perm bits.zipIdx ∧
     ranked.Pairwise (fun u v => u.1.conf < v.1.conf ∨ (u.1.conf = v.1.conf ∧ u.2 < v.2)) ∧
     weakBits k bits = (ranked.take k).map (·.1)) ∧
  ∀ (k : Nat) (bits : List VotedBit),
    let img := votedImage bits
    let weak := weakBits k bits
    let sound := soundMasks img weak k
    let flipped (mask : Nat) : List Word :=
      (weak.zipIdx.filter fun p => mask.testBit p.2).foldl
        (fun im p => im.modify p.1.word (· ^^^ BitVec.twoPow 16 p.1.bit)) img
    (∀ m, (sound m).Nodup ∧ ∀ mask, mask ∈ sound m ↔
      mask < 2 ^ k ∧ (List.range k).countP mask.testBit = m ∧ soundImage (flipped mask) = true) ∧
    (soundImage img = true → search bits k = .matched [] img) ∧
    (soundImage img = false →
      ((∀ m, 1 ≤ m → m ≤ k → sound m = []) → search bits k = .unmatched) ∧
      ∀ m, 1 ≤ m → m ≤ k → (∀ i, 1 ≤ i → i < m → sound i = []) →
        (∀ mask, sound m = [mask] →
          search bits k =
            .matched ((weak.zipIdx.filter fun p => mask.testBit p.2).map (·.1)) (flipped mask)) ∧
        (2 ≤ (sound m).length → search bits k = .ambiguous m (sound m).length))

/-- The delivery write of a result whose job accepts its grade ends at a sector whose address has no entry, while
others of the job's sectors are unresolved (R124, R125, R126, R127): the entry is made RECOVERED in the reserved slot,
the sector is RESOLVED with the result as its best, the locks of its captures are cleared, SECTOR_RESULT is raised with
the action CREATED, nothing is in flight, and the next solve may start. The model's own choices in it: log entry 7. -/
def Obligations.DeliveryComplete : Prop :=
  ∀ (f : Flight) (x : Result) (op : StoreOp) (j : Job) (r : SalvageSector) (s : State),
    let a := j.track.addr r.sector
    s.quiet → s.board.ts.ops = [op] → op.kind = .delivery → op.todo = [] → op.spoiled = false →
    s.board.su.flight = some f → f.phase = .delivering x → f.discard = false → f.superseded = false →
    f.requeue = false → f.job = j.serial → f.sector = r.sector → s.board.job j.serial = some j →
    j.kind = .salvage → j.sectorRec r.sector = some r → j.state = .active →
    (∃ q ∈ j.sectors, q.sector ≠ r.sector ∧ q.status.unresolved = true) →
    x.rating.grade.meets j.accept = true → r.slot = some op.slot → s.board.ts.entry a = none →
    (s.board.drv j.drive).lp.buf.state = .invalid → (∀ p ∈ s.board.ts.keep, p.2 ≠ .draining) →
    Completes .deliveryWriteComplete s
      { s.board with
        solveOver := true,
        su := { s.board.su with flight := none },
        ts := { s.board.ts with
          ops := [], writeRec := s.board.ts.writeRec.filter (!op.writes ·),
          keep := putKeep op.slot .entry s.board.ts.keep,
          dir := dirInsert { addr := a, slot := op.slot, kind := .recovered x.rating, damaged := false,
                             time := s.board.now, epoch := s.board.ts.epoch, exported := false }
            s.board.ts.dir },
        re := { s.board.re with jobs := s.board.re.jobs.map fun i =>
          if i.serial = j.serial then i.modSector r.sector fun q =>
            { q with status := .resolved, slot := none,
                     best := some { rating := x.rating, time := s.board.now },
                     caps := q.caps.map fun c => { c with lock := false } }
          else i },
        out := s.board.out ++
          [⟨some j.drive, s.board.now, .sectorResult j.id j.track r.sector (.resolved x.rating .created)⟩] }

/-! ### The track store -/

/-- Without other operations the initialisation writes the next cell with two zero words (R143); when the last cell
has been written the store becomes ready, STORE_READY is raised and an examination follows (R103). With three or more
refresh bursts pending no access is granted (R130, R146). The model's own choices in it: log entries 7 and 8. -/
def Obligations.StoreInitialises : Prop :=
  ∀ (pick : Nat) (wrong : CellBits) (a : Nat) (s : State),
    (3 ≤ s.board.sk.pending → Completes (.storeAccessGrant pick wrong) s s.board) ∧
    (s.board.sk.pending < 3 → s.board.ts.ops = [] → s.board.ts.init = some a → a < Config.storeCells →
      CompletesWith (.storeAccessGrant pick wrong) s
        { s.board with ts := { s.board.ts with init := some (a + 1) } }
        (dramPut s.dram a { data := 0, wrong := 0 })) ∧
    (s.board.ts.init = some Config.storeCells →
      Completes .storeInitComplete s
        { s.board with
          ts := { s.board.ts with init := none }, exam := true,
          out := s.board.out ++
            [⟨none, s.board.now, .storeReady s.board.ts.epoch s.board.ts.dir.length⟩] })

/-- Who is granted (R130, R131). Fills, commits and write-buffer fills come at priority 2, capture writes at 3, snapshot
reads and delivery writes at 4, link transfers, directory copies and the initialisation at 5. An operation holds its
slot, and a directory copy its source too; two clash where they hold a slot in common. The operations that may be granted
have an access waiting and clash with none requested before them; of these the one granted has the best priority, and was
requested when the first of that priority was. With no initialisation and an operation that may be granted, one is granted. While
the initialisation runs, it is granted unless one of a better priority waits. The model's own choices in it: log entry 7. -/
def Obligations.GrantOrder : Prop :=
  (∀ (d : DriveNo) (a : Addr) (c : Capture) (i : Fin 2) (w : Word) (f : Bool) (n k : Nat),
    (OpKind.fill d).priority = 2 ∧ (OpKind.commit d).priority = 2 ∧ (OpKind.writeFill d n f).priority = 2 ∧
    (OpKind.capture d i).priority = 3 ∧ OpKind.solveRead.priority = 4 ∧ OpKind.delivery.priority = 4 ∧
    (OpKind.fetchSector a).priority = 5 ∧ (OpKind.fetchCapture n k c).priority = 5 ∧
    (OpKind.storeSector a).priority = 5 ∧ (OpKind.patch a n w).priority = 5 ∧ (OpKind.copy a n).priority = 5) ∧
  (∀ x y : StoreOp,
    let slots (op : StoreOp) : List Nat :=
      op.slot :: match op.kind with
        | .copy _ source => [source]
        | _ => []
    x.clashes y = true ↔ ∃ n, n ∈ slots x ∧ n ∈ slots y) ∧
  (∀ (ops : List StoreOp) (n : Nat) (op : StoreOp),
    (n, op) ∈ grantable 0 [] ops ↔
      ops[n]? = some op ∧ op.todo ≠ [] ∧
        ∀ (m : Nat) (o : StoreOp), m < n → ops[m]? = some o → o.clashes op = false) ∧
  (∀ (ts : Store) (pick a : Nat), ts.init = some a → a < Config.storeCells →
    ((∀ p ∈ grantable 0 [] ts.ops, 5 ≤ p.2.kind.priority) → ts.grantee pick = some (.init a)) ∧
    ((∃ p ∈ grantable 0 [] ts.ops, p.2.kind.priority < 5) →
      ∃ n op, ts.grantee pick = some (.op n op) ∧ (n, op) ∈ grantable 0 [] ts.ops ∧
        ∀ p ∈ grantable 0 [] ts.ops, op.kind.priority ≤ p.2.kind.priority)) ∧
  (∀ (ts : Store) (pick : Nat), ts.init = none →
    ((∃ n op, ts.grantee pick = some (.op n op)) ↔ ∃ p, p ∈ grantable 0 [] ts.ops)) ∧
  ∀ (ts : Store) (pick n : Nat) (op : StoreOp), ts.init = none → ts.grantee pick = some (.op n op) →
    (n, op) ∈ grantable 0 [] ts.ops ∧
    (∀ m o, (m, o) ∈ grantable 0 [] ts.ops → op.kind.priority ≤ o.kind.priority) ∧
    ∃ m o, (m, o) ∈ grantable 0 [] ts.ops ∧ o.kind.priority = op.kind.priority ∧ o.at_ = op.at_ ∧
      ∀ k q, (k, q) ∈ grantable 0 [] ts.ops → q.kind.priority = op.kind.priority → m ≤ k

/-- One access granted (R129, R130, R142). A read of a cell without a wrong bit gives its words to the operation; with
one, the corrected words, logged SINGLE (R151), and the cell stays as it was. A write leaves the cell with the written
words and no wrong bit, and a keep slot written joins the write record. After its last read a PATCH goes on to the cells
that differ, always those of the patched word and of the check word, and a RECOVERED entry's quality cells (R139),
and a directory copy to all 83 cells of its slot (R141). A PATCH about to be granted its first cell asks the directory
again: withdrawn NOT_FOUND with no entry in the slot, DENIED with one DIVERTED or DAMAGED. A double error gives no words,
is logged DOUBLE and raised as a STORE notice with its effect (R152), and the slot is treated by its role (R135): an
entry is DAMAGED, the change told to LP (R25, R134), a READ that waits for the buffer relayed and checked (R29), and its
sector reported with source STORE, but for the track of a RELAY, which takes in nothing (R102), with the examination
(R103); a best result is dropped; a held capture leaves its set, and a PREPARE image its sector, the slot FREE and no
longer that of a write still going into it; any other slot is left. A fetch and a patch read on (R136, R137, R139); a
fill ends with its buffer INVALID (R30); a snapshot loses the member (R115); a write-buffer fill ends and the pass with
it at the boundary, the job to fail (R106, R141); a copy stops, its new entry DAMAGED (R141). What each role is. The
model's own choices in it: log entries 6 (the syndrome), 7, 8, 21, 44, 53, 63 and 72, and log entry 27 (the effect that
a copy's STORE notice names is its new entry's). -/
def Obligations.AccessGranted : Prop :=
  (∀ (pick n : Nat) (op : StoreOp) (rest : List Access) (wrong : CellBits) (s : State),
    let now := s.board.now
    let grant := Instr.storeAccessGrant pick wrong
    let ends (p : StoreOp → Bool) : Prop :=
      (∀ o ∈ s.board.ts.ops, p o = true → o.wrote = []) ∧
        ∀ q ∈ s.board.ts.keep, q.2 = .draining → ∃ o ∈ s.board.ts.ops, p o = false ∧ o.holds q.1 = true
    let without (p : StoreOp → Bool) (b : Board) : Board :=
      { b with ts := { b.ts with ops := b.ts.ops.filter (!p ·) } }
    let same (o : StoreOp) : Bool := o.kind = op.kind
    s.board.re.lawful → s.board.sk.pending < 3 → s.board.ts.grantee pick = some (.op n op) → s.board.ts.ops[n]? = some op →
    (∀ a k v, op.kind = .patch a k v → op.syn = [] → ends same →
      ((∀ e, s.board.ts.entry a = some e → e.slot ≠ op.slot) →
        Answers grant s (without same s.board) .notFound false []) ∧
      ∀ e, s.board.ts.entry a = some e → e.slot = op.slot → (e.damaged = true ∨ e.kind = .diverted) →
        Answers grant s (without same s.board) .denied false []) ∧
    ((∀ a k v, op.kind = .patch a k v → op.syn ≠ [] ∨
        ∃ e, s.board.ts.entry a = some e ∧ e.slot = op.slot ∧ e.damaged = false ∧ e.kind ≠ .diverted) →
      (∀ slot cell w, op.todo = .write slot cell w :: rest → cellAddress slot cell < Config.storeCells →
        CompletesWith grant s
          { s.board with ts := { s.board.ts with
              ops := s.board.ts.ops.modify n fun o =>
                { o with todo := o.todo.drop 1, wrote := o.wrote ++ [cell], lastAt := now },
              writeRec :=
                if slot < Config.keepSlots then insertNat slot s.board.ts.writeRec else s.board.ts.writeRec } }
          (dramPut s.dram (cellAddress slot cell) { data := w, wrong := 0 })) ∧
      ∀ slot cell, op.todo = .read slot cell :: rest → cellAddress slot cell < Config.storeCells →
      let c := disturb (dramGet s.dram (cellAddress slot cell)) wrong
      let reads (b : Board) : Prop := CompletesWith grant s b (dramPut s.dram (cellAddress slot cell) c)
      let goesOn (o : StoreOp) : StoreOp :=
        if o.todo = [] ∧ o.wrote = [] ∧ o.double = false then
          match o.kind with
          | .patch a k v =>
            let cells := packWords (buildImage a (buildVolume (s.board.drv a.drive).profile)
              ((dataWords (unpackWords o.got)).set k v))
            let recovered := (s.board.ts.entry a).any fun e =>
              e.slot = o.slot && e.kind ≠ .placed && e.kind ≠ .diverted
            { o with
              got := cells,
              todo := ((List.range 66).filter fun i =>
                  i = (k + 2) / 2 || i = 65 || cells.getD i 0 ≠ o.got.getD i 0).map
                    (fun i => .write o.slot i (cells.getD i 0)) ++
                if recovered then (packValues fullValues).zipIdx.map fun q => .write o.slot (q.2 + 66) q.1 else [] }
          | .copy a _ =>
            { o with todo := slotWrites o.slot (buildImage a (buildVolume (s.board.drv a.drive).profile)
                (dataWords (unpackWords o.got))) fullValues }
          | _ => o
        else o
      let took (w : BitVec 32) (syn : Nat) (double : Bool) : Board :=
        let taken (o : StoreOp) : StoreOp :=
          { o with todo := o.todo.drop 1, got := o.got ++ [w], syn := o.syn ++ [syn],
                   double := o.double || double, lastAt := now }
        { s.board with ts := { s.board.ts with ops := s.board.ts.ops.modify n fun o => goesOn (taken o) } }
      let syn := (Config.eccFewSyndrome c.wrong).val + 1
      let error (kind : ErrorKind) : LogEntry :=
        { kind := kind, slot := slot, cell := cell, syndrome := syn, finder := op.kind.finder,
          owner := s.board.slotOwner slot, time := now, epoch := s.board.ts.epoch }
      let log (e : LogEntry) : Upkeep := { s.board.sk with log := logInsert s.board.sk.log e }
      (wrongCount c.wrong = 0 → reads (took c.data 0 false)) ∧
      (wrongCount c.wrong = 1 → reads { took c.data syn false with sk := log (error .single) }) ∧
      (wrongCount c.wrong = 2 →
        let met (effect : StoreEffect) : Board :=
          { took 0 syn true with
            sk := log (error .double),
            out := s.board.out ++ [⟨none, now, .store (error .double) effect⟩] }
        let jobs (b : Board) (serial : Nat) (f : Job → Job) : Board :=
          { b with re := { b.re with jobs := b.re.jobs.map fun i => if i.serial = serial then f i else i } }
        let freed (b : Board) : Board := { b with ts := { b.ts with pool := b.ts.pool.filter (· ≠ slot) } }
        let readsOn := (∃ a, op.kind = .fetchSector a) ∨ (∃ j k v, op.kind = .fetchCapture j k v) ∨
          ∃ a k v, op.kind = .patch a k v
        let treated (b : Board) : Prop :=
          (readsOn → reads b) ∧
          ∀ d k f r, op.kind = .writeFill d k f → (s.board.drv d).da.served = some r → ends same →
            (∀ q ∈ s.board.ts.keep, q.2 ≠ .draining) →
            let y := b.drv d
            reads (without same (jobs
              { b with drives := b.drives.set d { y with da := { y.da with atBoundary := true, wbuf := .empty } } }
              r.serial fun i => { i with fatal := true }))
        let serves (e : KeepEntry) : Prop :=
          let buf := (s.board.drv e.addr.drive).lp.buf
          e.damaged = false ∧ buf.addr = e.addr ∧ (buf.state = .valid ∨ buf.state = .filling)
        let fills (e : KeepEntry) (o : StoreOp) : Bool := o.kind = .fill e.addr.drive
        let reportable (e : KeepEntry) : Prop :=
          s.board.ts.entry e.addr = some e ∧ s.board.captureJob e.addr = none ∧
          (s.board.trackJob e.addr.track = none →
            (∀ y ∈ s.board.re.suspects, y.track ≠ e.addr.track) ∧ s.board.re.suspects.length < 64) ∧
          (∀ j, s.board.trackJob e.addr.track = some j → j.kind = .relay) ∧
          (serves e → (s.board.drv e.addr.drive).lp.emission = none ∧ ends (fills e))
        let spoilt (e : KeepEntry) (b : Board) : Board :=
          let x := s.board.drv e.addr.drive
          let waits := x.lp.waitsOnBuffer
          let listed := (s.board.trackJob e.addr.track).isNone
          let live : LiveSetup :=
            { cyl := e.addr.cyl.val, head := e.addr.head.val, sector := e.addr.sector.val, capture := none }
          let voided : Drive :=
            { x with
              lp := { x.lp with
                buf := .empty, cmd := if waits then { x.lp.cmd with course := .relay } else x.lp.cmd },
              rc := if waits then { x.rc with shift := 0, setup := .live live } else x.rc }
          let entry : Suspect :=
            { track := e.addr.track, mask := sectorSet [e.addr.sector.val], count := 1, first := now, last := now,
              source := .store }
          let b := if serves e then without (fills e) b else b
          { b with
            exam := s.board.exam || listed,
            drives := if serves e then s.board.drives.set e.addr.drive voided else s.board.drives,
            ts := { b.ts with dir := b.ts.dir.map fun q =>
              if q.addr = e.addr ∧ e.damaged = false then { q with damaged := true, exported := false } else q },
            re := { s.board.re with suspects := s.board.re.suspects ++ if listed then [entry] else [] },
            out := b.out ++ if listed then [⟨some e.addr.drive, now, .suspectAdded entry⟩] else [] }
        (∀ e, s.board.roleOf slot = .entry e → reportable e →
          let b := (spoilt e (met (.entryDamaged e))).examine
          treated b ∧ (op.kind = .fill e.addr.drive → serves e → reads b)) ∧
        (s.board.roleOf slot = .other →
          treated (met .none) ∧
          ∀ a source, op.kind = .copy a source →
            let stop (b : Board) : Board :=
              { b with ts := { b.ts with ops := b.ts.ops.map fun o =>
                  if o.kind = op.kind ∧ o.slot = op.slot then { o with todo := [] } else o } }
            ((∀ e, s.board.ts.entry a = some e → e.slot ≠ op.slot) → reads (stop (met .none))) ∧
            ∀ e, s.board.ts.entry a = some e → e.slot = op.slot → reportable e →
              reads (spoilt e (stop (met (.entryDamaged e)))).examine) ∧
        ∀ serial k j, s.board.job serial = some j →
          (s.board.roleOf slot = .best serial k →
            treated (jobs (met (.bestDropped j.id k)) serial fun i => i.modSector k fun r =>
              { r with best := none })) ∧
          (s.board.roleOf slot = .capture serial k →
            let b := freed (jobs (met (.captureDiscarded j.id k)) serial fun i => i.modSector k fun r =>
              { r with caps := r.caps.filter fun q => ¬ (q.slot = slot ∧ q.held = true) })
            let unread (m : Member) : Bool := m.slot = slot && m.data.isNone
            ((∀ f, s.board.su.flight = some f → ∀ m ∈ f.snapshot, unread m = false) → treated b) ∧
            ∀ f, op.kind = .solveRead → op.slot = slot → s.board.su.flight = some f → f.phase = .reading →
              (∃ m ∈ f.snapshot, m.slot ≠ slot ∧ m.data = none) → (∃ m ∈ f.snapshot, unread m = true) →
              let read (o : StoreOp) : Bool := o.kind = .solveRead && o.slot = slot
              ends read →
              reads (without read { b with su := { b.su with
                flight := some { f with snapshot := f.snapshot.filter (!unread ·) } } })) ∧
          (s.board.roleOf slot = .image serial k →
            let disowned (y : CaptureBuffer) : CaptureBuffer :=
              if y.state = .writing ∧ y.who.job = serial ∧ y.who.slot = some slot then
                { y with who := { y.who with slot := none } }
              else y
            let lose (x : Drive) : Drive :=
              { x with rc := { x.rc with buf0 := disowned x.rc.buf0, buf1 := disowned x.rc.buf1 } }
            let ds := s.board.drives
            let b := freed (jobs (met (.prepareDiscarded j.id k)) serial fun i => i.modRelay k fun r =>
              { r with image := none })
            treated { b with drives := ⟨lose ds.d0, lose ds.d1, lose ds.d2, lose ds.d3⟩ })))) ∧
  ∀ (b : Board) (slot : Nat),
    match b.roleOf slot with
    | .entry e => e ∈ b.ts.dir ∧ e.slot = slot
    | .best serial k => ∃ j ∈ b.re.jobs, j.serial = serial ∧
        ∃ r ∈ j.sectors, r.sector = k ∧ r.slot = some slot ∧ r.best ≠ none
    | .capture serial k => ∃ j ∈ b.re.jobs, j.serial = serial ∧
        ∃ r ∈ j.sectors, r.sector = k ∧ ∃ c ∈ r.caps, c.slot = slot ∧ c.held = true
    | .image serial k => ∃ j ∈ b.re.jobs, j.serial = serial ∧
        ∃ r ∈ j.relay, r.sector = k ∧ ∃ c, r.image = some c ∧ c.slot = slot
    | .other => (∀ e ∈ b.ts.dir, e.slot ≠ slot) ∧ ∀ j ∈ b.re.jobs,
        (∀ r ∈ j.sectors, (r.slot = some slot → r.best = none) ∧ ∀ c ∈ r.caps, c.slot = slot → c.held = false) ∧
        ∀ r ∈ j.relay, ∀ c, r.image = some c → c.slot ≠ slot

/-- A scrub access (R129, R147, R149, R151). A cell without a wrong bit is left; one with one wrong bit is written
back corrected and logged SINGLE; one with two, in a slot without an owner or an operation, is logged DOUBLE and
raised as a STORE notice without effect. The scrub moves to the next cell. The error log (R151): a new entry joins the
end of a log of fewer than 16; in a full one the oldest SINGLE makes room, and with none a new SINGLE is lost and a
new DOUBLE takes the place of the oldest entry. The model's own choices in it: log entry 6: the syndrome is a free
value. -/
def Obligations.ScrubAndLog : Prop :=
  (∀ (wrong : CellBits) (s : State),
     let a := s.board.sk.address
     let c : DramCell := disturb (dramGet s.dram a) wrong
     let next (log : List LogEntry) : Upkeep :=
       { s.board.sk with waiting := false, log := log,
                         address := if a + 1 < Config.storeCells then a + 1 else 0 }
     let entry (kind : ErrorKind) : LogEntry :=
       { kind := kind, slot := a / 83, cell := a % 83, syndrome := (Config.eccFewSyndrome c.wrong).val + 1,
         finder := .scrub, owner := s.board.slotOwner (a / 83), time := s.board.now, epoch := s.board.ts.epoch }
     s.board.sk.waiting = true → s.board.sk.pending = 0 → s.board.ts.init = none → s.board.ts.ops = [] →
     a < Config.storeCells →
     (wrongCount c.wrong = 0 →
       CompletesWith (.scrubAccess wrong) s { s.board with sk := next s.board.sk.log } (dramPut s.dram a c)) ∧
     (wrongCount c.wrong = 1 →
       CompletesWith (.scrubAccess wrong) s { s.board with sk := next (logInsert s.board.sk.log (entry .single)) }
         (dramPut s.dram a { data := c.data, wrong := 0 })) ∧
     (wrongCount c.wrong = 2 → s.board.roleOf (a / 83) = .other →
       CompletesWith (.scrubAccess wrong) s
         { s.board with
           sk := next (logInsert s.board.sk.log (entry .double)),
           out := s.board.out ++ [⟨none, s.board.now, .store (entry .double) .none⟩] }
         (dramPut s.dram a c))) ∧
  ∀ (log : List LogEntry) (e : LogEntry),
    (log.length < 16 → logInsert log e = log ++ [e]) ∧
    (16 ≤ log.length →
      (∀ before x after, log = before ++ x :: after → x.kind = .single →
        (∀ y ∈ before, y.kind = .double) → logInsert log e = before ++ after ++ [e]) ∧
      ((∀ y ∈ log, y.kind = .double) →
        (e.kind = .single → logInsert log e = log) ∧
        ∀ x after, e.kind = .double → log = x :: after → logInsert log e = after ++ [e]))

/-- Ticks of the time base, 16 µs apart (R146, R147): a tick adds a refresh burst, at most 15 pending, and is counted
while scrubbing is on; the tick that brings the count to the interval is a scrub tick, which asks for a scrub, or adds
a burst where one still waits or the store is initialising. A burst granted leaves one fewer pending. The model's own
choices in it: log entry 25. -/
def Obligations.RefreshAndScrubTicks : Prop :=
  ∀ s : State,
    let sk := s.board.sk
    let put (sk : Upkeep) : Board := { s.board with sk := sk }
    (16 ≤ (s.board.now - sk.tickTime).toNat →
      (sk.interval = 0 ∨ sk.tickCount + 1 < sk.interval →
        Completes .refreshTick s
          (put { sk with pending := min 15 (sk.pending + 1), tickTime := sk.tickTime + 16,
                         tickCount := if sk.interval = 0 then 0 else sk.tickCount + 1 })) ∧
      (sk.interval ≠ 0 → sk.interval ≤ sk.tickCount + 1 →
        Completes .scrubTick s
          (put (if sk.waiting || s.board.ts.init.isSome then
              { sk with pending := min 15 (sk.pending + 1), tickTime := sk.tickTime + 16, tickCount := 0 }
            else { sk with waiting := true, tickTime := sk.tickTime + 16, tickCount := 0 })))) ∧
    (3 ≤ sk.pending ∨ (1 ≤ sk.pending ∧ s.board.ts.ops = [] ∧ s.board.ts.init = none) →
      Completes .refreshBurst s (put { sk with pending := sk.pending - 1 }))

/-- A fill whose last access has been made and whose image passes the check of R27 makes the buffer VALID with the
image (R24). The ends of a RELAY's store work (R8, R106, R141): a write-buffer fill leaves the image built with the
sector's address, the build volume and the data read; a directory copy frees the slot it read. A RELAY's pass begins as
its positioning ends (R79, R105, R106, R107): PREPARE reads the sectors without a source, each with the next free
capture slot set aside, WRITE requests the image of the slot after next, VERIFY checks every sector. In a WRITE pass a
slot whose image is ready is written and the next image is requested, from the keep entry or else from the PREPARE
image, whose capture write it waits for; with neither the pass ends at the boundary and the job will fail. One whose
image is not ready ends the pass at the boundary as abandoned, and a fill still running is withdrawn (R4, R106, R131,
R141). The S-th slot ends the pass (R79, R80): PREPARE goes on until no source is missing, WRITE to VERIFY, a first
VERIFY that fails to a second, and one that verifies every sector finishes the job COMPLETE, the DIVERTED entries of
the track PLACED under RETAIN (R108, R112). The drive is then handed back, with LIVE_ONLY pending or under speed doubt,
at a drive with the heads at the live cylinder (R72, R75, R80). The model's own choices in it: log entry 7; 49: the
missing sectors are given slots in the order of the job's records; 16: a buffer with another sector's image is not
ready; 35: the write-protect line comes with the pulse. -/
def Obligations.FillsAndCopiesEnd : Prop :=
  let wanted (b : Board) (d : DriveNo) (k : Nat) (fromImage : Bool) (slot : Nat) : Board :=
    { b with ts := { b.ts with ops := b.ts.ops ++
        [{ kind := .writeFill d k fromImage, slot := slot, at_ := b.now, todo := slotReads slot Config.imageCells,
           got := [], syn := [], double := false, wrote := [], spoiled := false, lastAt := b.now }] } }
  (∀ (d : DriveNo) (op : StoreOp) (s : State),
     let x := s.board.drv d
     let img := unpackWords op.got
     s.board.ts.ops = [op] → op.kind = .fill d → op.todo = [] → (∀ p ∈ s.board.ts.keep, p.2 ≠ .draining) →
     (imageHeader img).cyl = x.lp.buf.addr.cyl.val → (imageHeader img).head = x.lp.buf.addr.head.val →
     (imageHeader img).format = 0 → (imageHeader img).sector = x.lp.buf.addr.sector.val →
     soundImage img = true →
     Completes (.emitFillComplete d) s
       { s.board with
         drives := s.board.drives.set d { x with
           lp := { x.lp with buf := { state := .valid, addr := x.lp.buf.addr, image := img } } },
         ts := { s.board.ts with ops := [], writeRec := s.board.ts.writeRec.filter (!op.writes ·) } }) ∧
  (∀ (op : StoreOp) (s : State),
     let rec' := s.board.ts.writeRec.filter (!op.writes ·)
     s.board.ts.ops = [op] → op.todo = [] → op.spoiled = false → (∀ p ∈ s.board.ts.keep, p.2 ≠ .draining) →
     (∀ d k fromImage j r, op.kind = .writeFill d k fromImage → (s.board.drv d).da.served = some r →
       s.board.job r.serial = some j →
       Completes (.writeBufferFillEnd d) s
         { s.board with
           ts := { s.board.ts with ops := [], writeRec := rec' },
           drives := s.board.drives.set d { s.board.drv d with da := { (s.board.drv d).da with
             wbuf := .ready k fromImage (buildImage (j.track.addr k) (buildVolume (s.board.drv d).profile)
               (dataWords (unpackWords op.got))) } } }) ∧
     ∀ a source, op.kind = .copy a source →
       Completes (.directoryCopyEnd op.slot) s
         { s.board with ts := { s.board.ts with
             ops := [], writeRec := rec', pool := s.board.ts.pool.filter (· ≠ source) } }) ∧
  (∀ (d : DriveNo) (r : JobRef) (j : Job) (s : State),
     let x := s.board.drv d
     let plan := x.da.plan
     let sectors := x.profile.sectors
     x.lp.seeking = false → x.da.work = .seek → x.da.abandon = false → x.da.preempted = false →
     x.rc.offset = .zero → plan.offset = .zero → x.rt.doubt = false → x.da.served = some r →
     s.board.job r.serial = some j → j.kind = .relay → j.serial = r.serial →
     let begun (kind : PassKind) (wbuf : WriteBuffer) (rc : Channel) : Board :=
       { s.board with drives := s.board.drives.set d { x with
           pins := { x.pins with onCylinder := true, head := Fin.ofNat 4 plan.head }, rc := rc,
           da := { x.da with
             headCyl := some (Fin.ofNat 512 plan.cyl), seekFault := false,
             enginePos := some { cyl := plan.cyl, head := plan.head, offset := .zero },
             owner := .enginePass, passKind := some kind, slots := 0, atBoundary := false, stopAtEnd := false,
             missed := false, surveyMask := 0, work := .idle, wbuf := wbuf, writing := none, writeImage := [] } } }
     let pass (tag : PassTag) (plans : List SlotPlan) : Board :=
       begun .read .empty { x.rc with
         shift := plan.shift,
         setup := .pass { cyl := plan.cyl, head := plan.head, shift := plan.shift, tag := tag,
                          passNo := min 65535 (j.total + 1), plans := plans } }
     let sourced (q : RelaySector) : Bool :=
       (s.board.ts.entry (j.track.addr q.sector)).any (!·.damaged) || q.image.isSome
     let missing := (j.relay.filter (!sourced ·)).map (·.sector)
     (j.relayStep = .verify →
       Completes (.driveOnCylinder d) s
         (pass .verify ((List.range sectors).map fun k => { sector := k, capture := none, acted := false }))) ∧
     (j.relayStep = .write →
       let k := (x.rt.position + 1) % sectors
       (∀ e, s.board.ts.entry (j.track.addr k) = some e → e.damaged = false →
         Completes (.driveOnCylinder d) s (wanted (begun .write (.filling k false) x.rc) d k false e.slot)) ∧
       ∀ c, (s.board.ts.entry (j.track.addr k)).all (·.damaged) = true → (j.relayRec k).bind (·.image) = some c →
         Completes (.driveOnCylinder d) s
           (if c.held then wanted (begun .write (.filling k true) x.rc) d k true c.slot
            else begun .write (.waiting k) x.rc)) ∧
     (j.relayStep = .prepare → (s.board.ts.pool).Pairwise (· < ·) →
       (∀ n ∈ s.board.ts.pool, Config.keepSlots ≤ n) →
       s.board.ts.pool.length + missing.length ≤ Config.allSlots - Config.keepSlots →
       ∃ slots : List Nat,
         let free (n : Nat) : Prop := Config.keepSlots ≤ n ∧ n < Config.allSlots ∧ n ∉ s.board.ts.pool
         let b := pass .prepare (List.zipWith (fun k n =>
           { sector := k, capture := some { job := j.serial, sector := k, slot := some n }, acted := false })
           missing slots)
         slots.length = missing.length ∧ slots.Pairwise (· < ·) ∧
         (∀ n ∈ slots, free n ∧ ∀ m, m < n → free m → m ∈ slots) ∧
         Completes (.driveOnCylinder d) s
           { b with
             ts := { b.ts with pool := slots.foldl (fun ps n => insertNat n ps) b.ts.pool },
             re := { b.re with jobs := b.re.jobs.map fun i =>
               if i.serial = r.serial then
                 (missing.zip slots).foldl (fun i p => i.modRelay p.1 fun q => { q with aside := some p.2 }) i
               else i } })) ∧
  ∀ (d : DriveNo) (wp : Bool) (r : JobRef) (j : Job) (s : State),
    let x := s.board.drv d
    let now := s.board.now
    let sectors := x.profile.sectors
    let rt := x.rt.advance sectors
    let quiet : Arbiter := { x.da with writing := none, writeImage := [] }
    let jobs (f : Job → Job) : Engine :=
      { s.board.re with jobs := s.board.re.jobs.map fun i => if i.serial = r.serial then f i else i }
    x.da.served = some r → s.board.job r.serial = some j → j.kind = .relay → j.serial = r.serial →
    (x.lp.cmd.phase ≠ .transfer → x.lp.cmd.phase ≠ .awaitingSlot → x.rc.activity = .idle →
      x.da.owner = .enginePass → x.da.stopAtEnd = false →
      x.da.passKind = some .write → x.da.atBoundary = false → x.da.slots < sectors →
      let k := rt.position
      let slot (da : Arbiter) : Board :=
        { s.board with drives := s.board.drives.set d { x with
            pins := { x.pins with writeProtect := wp }, rt := rt, da := { da with slots := x.da.slots + 1 } } }
      (∀ fromImage img, x.da.wbuf = .ready k fromImage img →
        let re := jobs fun i =>
          { i.modRelay k fun q => { q with written := fromImage } with written := true }
        let written (wbuf : WriteBuffer) : Board :=
          { slot { quiet with writing := some k, writeImage := img, wbuf := wbuf } with re := re }
        (x.da.slots + 1 = sectors → Completes (.sectorPulse d wp) s (written .empty)) ∧
        (x.da.slots + 1 < sectors →
          let next := (k + 1) % sectors
          let entry := s.board.ts.entry (j.track.addr next)
          let image := (j.relayRec next).bind (·.image)
          (∀ e, entry = some e → e.damaged = false →
            Completes (.sectorPulse d wp) s (wanted (written (.filling next false)) d next false e.slot)) ∧
          (∀ c, entry.all (·.damaged) = true → image = some c →
            Completes (.sectorPulse d wp) s
              (if c.held then wanted (written (.filling next true)) d next true c.slot
              else written (.waiting next))) ∧
          (entry.all (·.damaged) = true → image = none →
            Completes (.sectorPulse d wp) s
              { slot { quiet with writing := some k, writeImage := img, wbuf := .empty, atBoundary := true } with
                re := jobs fun i =>
                  { i.modRelay k fun q => { q with written := fromImage } with written := true, fatal := true } }))) ∧
      ((∀ fromImage img, x.da.wbuf ≠ .ready k fromImage img) →
        let fill (op : StoreOp) : Bool := match op.kind with
          | .writeFill e _ _ => e = d
          | _ => false
        let ops := s.board.ts.ops.filter (!fill ·)
        let freed (p : Nat × KeepState) : Prop := p.2 = .draining ∧ ∀ op ∈ ops, op.holds p.1 = false
        let b := slot { quiet with wbuf := .empty, atBoundary := true, missed := true }
        (∀ op ∈ s.board.ts.ops, fill op = true → op.wrote = []) →
        Completes (.sectorPulse d wp) s
          { b with
            exam := s.board.exam || Decidable.decide (∃ p ∈ s.board.ts.keep, freed p),
            ts := { b.ts with ops := ops, keep := s.board.ts.keep.filter fun p => ¬ freed p } })) ∧
    (s.quiet → s.board.noWriteFill d → x.passOver → sectors ≤ x.da.slots → x.da.surveyMask = 0 →
      let ended : Board := { s.board with drives := s.board.drives.set d ((x.passPulsed wp).handedBack now) }
      let counted : Job := { j with total := min 65535 (j.total + 1) }
      let ends (i : Job) : Prop :=
        Completes (.sectorPulse d wp) s
          { ended with re := jobs fun _ => { i with state := .waiting, level := .patient, since := now } }
      let missing := (j.relay.all fun q =>
        (s.board.ts.entry (j.track.addr q.sector)).any (!·.damaged) || q.image.isSome) = false
      (j.relayStep = .prepare → x.da.missed = false →
        (missing → j.stepPass < 2 → ends { counted with stale := false, stepPass := j.stepPass + 1 }) ∧
        (¬ missing → ends { counted with stale := false, relayStep := .write, stepPass := 0 })) ∧
      (j.relayStep = .write → j.fatal = false →
        (x.da.missed = false → j.stale = false →
          ends { counted with relayStep := .verify, stepPass := 0,
                              relay := j.relay.map fun q => { q with verified := false } }) ∧
        (x.da.missed = true → ends { counted with stale := false, abandoned := min 65535 (j.abandoned + 1) })) ∧
      (j.relayStep = .verify → x.da.missed = false → j.stale = false →
        ((∃ q ∈ j.relay, q.verified = false) → j.stepPass = 0 → ends { counted with stepPass := 1 }) ∧
        ((∀ q ∈ j.relay, q.verified = true ∧ q.aside = none ∧ q.image = none) → j.sectors = [] → j.retain = true →
          j.drive = d → (s.board.ts.dir.map (·.addr)).Nodup → x.lp.buf.state = .invalid → s.board.noAuto →
          s.board.noSolve r.serial →
          Completes (.sectorPulse d wp) s
            { ended with
              exam := false,
              out := s.board.out ++ [⟨some j.drive, now, .jobDone counted .complete⟩],
              ts := { s.board.ts with dir := s.board.ts.dir.map fun e =>
                if e.addr.track = j.track ∧ e.isDiverted then { e with kind := .placed, exported := false } else e },
              re := { s.board.re with
                jobs := s.board.re.jobs.filter (·.serial ≠ r.serial),
                suspects := s.board.re.suspects.filter (·.track ≠ j.track) } })))

/-- The captures of a pass. A SALVAGE's capture write ends (R65, R98, R99, R114): the pending entry becomes a held capture
at the end of its set with the report's fields, the buffer is FREE, and the unresolved sector is queued for a solve. A
PREPARE image's (R105, R106): the image is held, and the write-buffer fill that waited for it is requested. A listed slot
opens in CAPTURE mode (R64): the first FREE buffer receives it; with both busy it is read in CHECK mode, not kept, and
its set-aside slot leaves the set. It closes (R63, R64, R65, R99): without an image, or with the sector RESOLVED or
SUPERSEDED, the buffer is FREE and the set-aside slot too; otherwise the capture is written into the slot set aside, or
with none into that of the lowest unlocked held capture of its set, the oldest of equals, when its total is not above the
newcomer's, and is dropped where every such total is. In a PREPARE pass a good image becomes the sector's source and is
written into the slot set aside; any other is dropped and the slot is FREE (R105). A SALVAGE's pass ends (R79, R93, R95):
a full pass counts at the ladder's step, and a step whose passes are made gives way to the next, the last to the next
repeat or to exhaustion; an abandoned one counts as such. The job is WAITING while an unresolved sector and a step are
left, else SETTLING while a solve is outstanding, else it finishes PARTIAL: stated with nothing recovered, its reserved
slots FREE. The drive is then handed back, with LIVE_ONLY pending or under speed doubt, at a drive with the heads at the
live cylinder (R72, R75, R80). The model's own choices in it: log entries 7, 35, 41 and 69 (when a slot not kept is
freed), log entry 17 (the pass counts at the ladder now in force) and log entry 33 (a pass asked to end before its first
slot ends at the next pulse). -/
def Obligations.CaptureWritten : Prop :=
  (∀ (d : DriveNo) (i : Fin 2) (op : StoreOp) (j : Job) (r : SalvageSector) (s : State),
     let x := s.board.drv d
     let buf := x.rc.buf i
     let c : Capture :=
       { slot := op.slot, held := true, lock := false, tag := buf.tag, passNo := buf.passNo,
         shift := buf.shift, offset := buf.offset, total := buf.total, time := buf.time }
     s.board.ts.ops = [op] → op.kind = .capture d i → op.todo = [] → op.spoiled = false →
     (∀ p ∈ s.board.ts.keep, p.2 ≠ .draining) → buf.who.job = j.serial → buf.who.sector = r.sector →
     s.board.job j.serial = some j → j.kind = .salvage → j.state = .active →
     j.sectorRec r.sector = some r → r.status.unresolved = true →
     (∃ p ∈ r.caps, p.slot = op.slot ∧ p.held = false) → s.board.su.flight = none →
     (j.serial, r.sector) ∉ s.board.su.queue →
     Completes (.captureWriteComplete d i) s
       { s.board with
         drives := s.board.drives.set d { x with rc := x.rc.setBuf i .empty },
         ts := { s.board.ts with ops := [], writeRec := s.board.ts.writeRec.filter (!op.writes ·) },
         su := { s.board.su with queue := s.board.su.queue ++ [(j.serial, r.sector)] },
         re := { s.board.re with jobs := s.board.re.jobs.map fun k =>
           if k.serial = j.serial then k.modSector r.sector fun r =>
             { r with caps := (r.caps.filter fun p => !(p.slot = op.slot && !p.held)) ++ [c] }
           else k } }) ∧
  (∀ (d : DriveNo) (i : Fin 2) (op : StoreOp) (j : Job) (q : RelaySector) (s : State),
     let x := s.board.drv d
     let buf := x.rc.buf i
     let c : Capture :=
       { slot := op.slot, held := true, lock := false, tag := buf.tag, passNo := buf.passNo,
         shift := buf.shift, offset := buf.offset, total := buf.total, time := buf.time }
     let ended (da : Arbiter) (ops : List StoreOp) : Board :=
       { s.board with
         drives := s.board.drives.set d { x with rc := x.rc.setBuf i .empty, da := da },
         ts := { s.board.ts with ops := ops, writeRec := s.board.ts.writeRec.filter (!op.writes ·) },
         re := { s.board.re with jobs := s.board.re.jobs.map fun k =>
           if k.serial = j.serial then k.modRelay q.sector fun q => { q with image := some c } else k } }
     s.board.ts.ops = [op] → op.kind = .capture d i → op.todo = [] → op.spoiled = false →
     (∀ p ∈ s.board.ts.keep, p.2 ≠ .draining) → buf.who.job = j.serial → buf.who.sector = q.sector →
     s.board.job j.serial = some j → j.kind = .relay → j.drive = d → j.relayRec q.sector = some q →
     q.image = some { c with held := false } →
     (x.da.wbuf ≠ .waiting q.sector → Completes (.captureWriteComplete d i) s (ended x.da [])) ∧
     ∀ r, x.da.wbuf = .waiting q.sector → x.da.served = some r → r.serial = j.serial →
       (s.board.ts.entry (j.track.addr q.sector)).all (·.damaged) = true →
       Completes (.captureWriteComplete d i) s
         (ended { x.da with wbuf := .filling q.sector true }
           [{ kind := .writeFill d q.sector true, slot := op.slot, at_ := s.board.now,
              todo := slotReads op.slot Config.imageCells, got := [], syn := [], double := false, wrote := [],
              spoiled := false, lastAt := s.board.now }])) ∧
  (∀ (d : DriveNo) (wp : Bool) (ps : PassSetup) (s : State),
    let x := s.board.drv d
    let now := s.board.now
    let rt := x.rt.advance x.profile.sectors
    let pulse (rc : Channel) : Board :=
      { s.board with drives := s.board.drives.set d { x with
          pins := { x.pins with writeProtect := wp }, rt := rt, rc := rc,
          da := { x.da with writing := none, writeImage := [], slots := x.da.slots + 1 } } }
    let sets (c : CaptureFor) (f : List Capture → List Capture) (b : Board) : Board :=
      { b with re := { b.re with jobs := b.re.jobs.map fun i =>
          if i.serial = c.job then i.modSector c.sector fun q => { q with caps := f q.caps } else i } }
    let dropped (c : CaptureFor) (b : Board) : Board :=
      match c.slot with
      | some n =>
        { sets c (·.filter fun y => ¬ (y.slot = n ∧ y.held = false)) b with
          ts := { b.ts with pool := b.ts.pool.filter (· ≠ n) } }
      | none => b
    let pends (c : CaptureFor) (r : SalvageSector) : Prop :=
      (∃ j, s.board.job c.job = some j ∧ j.kind = .salvage ∧ j.sectorRec c.sector = some r) ∧
        ∀ n, c.slot = some n → ∃ y ∈ r.caps, y.slot = n ∧ y.held = false
    let listed := ps.plans.find? fun p => p.sector = rt.position && !p.acted
    x.lp.cmd.phase ≠ .transfer → x.lp.cmd.phase ≠ .awaitingSlot → x.da.owner = .enginePass →
    x.da.passKind = some .read → x.da.atBoundary = false → x.da.stopAtEnd = false →
    x.da.slots < x.profile.sectors → x.rc.setup = .pass ps →
    (∀ p c r, x.rc.activity = .idle → listed = some p → p.capture = some c → pends c r →
      let hunt (who : Option CaptureFor) (i : Option (Fin 2)) : Channel :=
        { x.rc with
          setup := .pass { ps with plans := ps.plans.map fun q =>
            if q.sector = rt.position then { q with acted := true } else q },
          slotShift := x.rc.shift, activity := .hunting, slotNo := rt.position, slotFor := who, slotBuf := i,
          notKept := i.isNone, run := 0, cells := 0, wordIndex := 0, check := 0, header := none, found := false,
          sound := false }
      let receiving : CaptureBuffer := { CaptureBuffer.empty with state := .receiving, who := c }
      (x.rc.buf0.state = .free →
        Completes (.sectorPulse d wp) s (pulse { hunt (some c) (some 0) with buf0 := receiving })) ∧
      (x.rc.buf0.state ≠ .free → x.rc.buf1.state = .free →
        Completes (.sectorPulse d wp) s (pulse { hunt (some c) (some 1) with buf1 := receiving })) ∧
      (x.rc.buf0.state ≠ .free → x.rc.buf1.state ≠ .free →
        Completes (.sectorPulse d wp) s (dropped c (pulse (hunt none none))))) ∧
    ∀ i, listed = none → x.rc.activity ≠ .idle → x.rc.slotBuf = some i →
      let buf := x.rc.buf i
      let image := x.rc.activity = .complete ∧ x.rc.found = true
      let total := buf.quals.sum
      let closed (y : CaptureBuffer) : Board :=
        pulse ({ x.rc with activity := .idle, slotFor := none, slotBuf := none, notKept := false }.setBuf i y)
      let written (o : HeaderOutcome) (slot : Nat) : Board :=
        let b := closed { buf with
          state := .writing, who := { buf.who with slot := some slot }, sound := x.rc.sound, outcome := o,
          time := x.rc.capTime, total := total, shift := x.rc.slotShift, offset := x.rc.offset, tag := ps.tag,
          passNo := ps.passNo }
        { b with ts := { b.ts with ops := b.ts.ops ++
            [{ kind := .capture d i, slot := slot, at_ := now, todo := slotWrites slot buf.words buf.quals,
               got := [], syn := [], double := false, wrote := [], spoiled := false, lastAt := now }] } }
      (∀ r n, ps.tag = .step n → pends buf.who r →
        (¬ image ∨ r.status.unresolved = false →
          Completes (.sectorPulse d wp) s (dropped buf.who (closed .empty))) ∧
        ∀ o h, image → x.rc.header = some (o, h) → r.status.unresolved = true →
          let free (c : Capture) : Prop := c.held = true ∧ c.lock = false
          (∀ slot, buf.who.slot = some slot → Completes (.sectorPulse d wp) s (written o slot)) ∧
          (buf.who.slot = none →
            ((∀ c ∈ r.caps, free c → total < c.total) → Completes (.sectorPulse d wp) s (closed .empty)) ∧
            ∀ before c after, r.caps = before ++ c :: after → free c → c.total ≤ total →
              (∀ y ∈ before, free y → c.total < y.total) → (∀ y ∈ after, free y → c.total ≤ y.total) →
              Completes (.sectorPulse d wp) s
                (sets buf.who (fun cs => cs.filter (·.slot ≠ c.slot) ++ [Capture.pendingAt c.slot])
                  (written o c.slot)))) ∧
      (ps.tag = .prepare → buf.who.slot = none → Completes (.sectorPulse d wp) s (closed .empty)) ∧
      ∀ j q n, ps.tag = .prepare → s.board.job buf.who.job = some j → j.kind = .relay →
        j.relayRec buf.who.sector = some q → buf.who.slot = some n → q.aside = some n →
        let relays (f : RelaySector → RelaySector) (b : Board) : Board :=
          { b with re := { b.re with jobs := b.re.jobs.map fun i =>
              if i.serial = buf.who.job then i.modRelay buf.who.sector f else i } }
        let c : Capture :=
          { slot := n, held := false, lock := false, tag := .prepare, passNo := ps.passNo, shift := x.rc.slotShift,
            offset := x.rc.offset, total := total, time := x.rc.capTime }
        (¬ (image ∧ x.rc.sound = true ∧ ∃ h, x.rc.header = some (.matched, h)) →
          let b := relays (fun q => { q with aside := none }) (closed .empty)
          Completes (.sectorPulse d wp) s
            { b with ts := { b.ts with pool := b.ts.pool.filter (· ≠ n) } }) ∧
        ∀ h, image → x.rc.sound = true → x.rc.header = some (.matched, h) →
          Completes (.sectorPulse d wp) s
            (relays (fun q => { q with aside := none, image := some c }) (written .matched n))) ∧
  ∀ (d : DriveNo) (wp : Bool) (r : JobRef) (j : Job) (s : State),
    let x := s.board.drv d
    let now := s.board.now
    let ladder := s.board.re.ladder
    let full := x.profile.sectors ≤ x.da.slots ∧ x.da.missed = false
    s.quiet → x.passOver → s.board.noWriteFill d → x.da.surveyMask = 0 → x.da.served = some r →
    s.board.job r.serial = some j → j.kind = .salvage → j.drive = d →
    let made := if full then j.passes + 1 else j.passes
    let counted : Job :=
      { j with total := min 65535 (j.total + 1),
               abandoned := if full then j.abandoned else min 65535 (j.abandoned + 1) }
    let endOfRepeat : Job :=
      if j.rep < j.repeats then { counted with step := 0, passes := 0, rep := j.rep + 1 }
      else { counted with passes := made, exhausted := true }
    let moved : Job :=
      if j.exhausted then counted
      else match ladder[j.step]? with
        | none => endOfRepeat
        | some st =>
          if made < st.passes then { counted with passes := made }
          else if j.step + 1 < ladder.length then { counted with step := j.step + 1, passes := 0 }
          else endOfRepeat
    let ended (jobs : List Job) : Board :=
      { s.board with drives := s.board.drives.set d ((x.passPulsed wp).handedBack now), re := { s.board.re with jobs := jobs } }
    let stays (i : Job) : Board := ended (s.board.re.jobs.map fun q => if q.serial = r.serial then i else q)
    let wants := moved.exhausted = false ∧ ∃ q ∈ j.sectors, q.status.unresolved = true
    (wants →
      Completes (.sectorPulse d wp) s (stays { moved with state := .waiting, level := .patient, since := now })) ∧
    (¬ wants →
      (¬ s.board.noSolve r.serial → Completes (.sectorPulse d wp) s (stays { moved with state := .settling })) ∧
      (s.board.noSolve r.serial → (∀ e, (s.board.drv e).rc.buf0.state ≠ .writing ∧
          (s.board.drv e).rc.buf1.state ≠ .writing ∧ (s.board.drv e).lp.diversion = none) →
        (∀ q ∈ j.sectors, q.best = none ∧ q.caps = []) → j.relay = [] → s.board.ts.ops = [] → s.board.noAuto →
        let b := ended (s.board.re.jobs.filter (·.serial ≠ r.serial))
        Completes (.sectorPulse d wp) s
          { b with
            exam := false, out := s.board.out ++ [⟨some d, now, .jobDone moved .partialDone⟩],
            ts := { b.ts with keep := s.board.ts.keep.filter fun p => ∀ q ∈ j.sectors, q.slot ≠ some p.1 } }))

/-- The ends of the host's reads (R136, R137). A FETCH_SECTOR whose entry still stands in the slot read is answered OK
with the entry and what was read, and the entry is marked exported; with a double error it is answered DAMAGED; with
the entry gone, NOT_FOUND. A FETCH_CAPTURE is answered OK with what was read, or DAMAGED. The model's own choices in
it: log entries 7 and 28. -/
def Obligations.FetchEnds : Prop :=
  ∀ (op : StoreOp) (s : State),
    let left : Board :=
      { s.board with ts := { s.board.ts with ops := [], writeRec := s.board.ts.writeRec.filter (!op.writes ·) } }
    s.board.ts.ops = [op] → op.todo = [] → (∀ p ∈ s.board.ts.keep, p.2 ≠ .draining) →
    (∀ a, op.kind = .fetchSector a →
      ((∀ e, s.board.ts.entry a = some e → e.slot ≠ op.slot) →
        Answers .fetchSectorReadEnd s left .notFound false []) ∧
      ∀ e, s.board.ts.entry a = some e → e.slot = op.slot →
        (op.double = true → Answers .fetchSectorReadEnd s left .damaged false e.bytes) ∧
        (op.double = false →
          Answers .fetchSectorReadEnd s
            { left with ts := { left.ts with dir := s.board.ts.dir.map fun e =>
                if e.addr = a then { e with exported := true } else e } }
            .ok false (e.bytes ++ op.fetchBytes))) ∧
    (∀ n k c, op.kind = .fetchCapture n k c →
      (op.double = true → Answers .fetchCaptureReadEnd s left .damaged false []) ∧
      (op.double = false → Answers .fetchCaptureReadEnd s left .ok false (c.bytes ++ op.fetchBytes)))

/-- The ends of the host's writes (R133, R134, R138, R139), on a track without a job and with no buffer that holds the
address. A STORE_SECTOR makes a PLACED entry in its slot; one that stood at the address in another slot is replaced, and
its own slot is HELD where a diversion still holds it and FREE otherwise; where a DIVERTED one has come the request is
DENIED and its slot is free again. A PATCH_WORD whose entry still stands makes it PLACED now and answers with the check
word; with a double error in what it read, or the entry DAMAGED since, it is answered DAMAGED, and with the entry gone
NOT_FOUND, and the directory stays as it is. The model's own choices in it: log entries 7 and 63. -/
def Obligations.StoreWriteEnds : Prop :=
  ∀ (op : StoreOp) (a : Addr) (s : State),
    let rec' := s.board.ts.writeRec.filter (!op.writes ·)
    s.board.ts.ops = [op] → op.todo = [] → op.spoiled = false → (∀ p ∈ s.board.ts.keep, p.2 ≠ .draining) →
    s.board.trackJob a.track = none → (s.board.drv a.drive).lp.buf.state = .invalid →
    (op.kind = .storeSector a → s.board.ts.entry a = none →
      let e : KeepEntry := { addr := a, slot := op.slot, kind := .placed, damaged := false, time := s.board.now,
                             epoch := s.board.ts.epoch, exported := false }
      Answers .storeSectorWriteEnd s
        { s.board with ts := { s.board.ts with
            ops := [], writeRec := rec', dir := dirInsert e s.board.ts.dir,
            keep := putKeep op.slot .entry s.board.ts.keep } }
        .ok false e.bytes) ∧
    (∀ old, op.kind = .storeSector a → s.board.ts.entry a = some old → old.isDiverted = false →
      old.slot ≠ op.slot →
      let e : KeepEntry := { addr := a, slot := op.slot, kind := .placed, damaged := false, time := s.board.now,
                             epoch := s.board.ts.epoch, exported := false }
      let keep := putKeep op.slot .entry s.board.ts.keep
      let held := s.board.divertHolds old.slot
      Answers .storeSectorWriteEnd s
        { s.board with
          exam := s.board.exam || !held,
          ts := { s.board.ts with
            ops := [], writeRec := rec', dir := dirInsert e s.board.ts.dir,
            keep := if held then putKeep old.slot .held keep else keep.filter (·.1 ≠ old.slot) } }
        .ok false e.bytes) ∧
    (op.kind = .storeSector a → (s.board.ts.entry a).any (·.isDiverted) = true →
      s.board.divertHolds op.slot = false →
      Answers .storeSectorWriteEnd s
        { s.board with
          exam := true,
          ts := { s.board.ts with ops := [], writeRec := rec',
                                  keep := s.board.ts.keep.filter (·.1 ≠ op.slot) } }
        .denied false []) ∧
    (∀ n v, op.kind = .patch a n v →
      let left : Board := { s.board with ts := { s.board.ts with ops := [], writeRec := rec' } }
      (op.double = true → Answers .patchWriteEnd s left .damaged false []) ∧
      (op.double = false → (∀ e, s.board.ts.entry a = some e → e.slot ≠ op.slot) →
        Answers .patchWriteEnd s left .notFound false []) ∧
      ∀ e, op.double = false → s.board.ts.entry a = some e → e.slot = op.slot → e.damaged = true →
        Answers .patchWriteEnd s left .damaged false []) ∧
    ∀ n v e, op.kind = .patch a n v → op.double = false → s.board.ts.entry a = some e → e.slot = op.slot →
      e.damaged = false →
      Answers .patchWriteEnd s
        { s.board with ts := { s.board.ts with
            ops := [], writeRec := rec', dir := s.board.ts.dir.map fun e =>
              if e.addr = a then { e with kind := .placed, time := s.board.now, epoch := s.board.ts.epoch,
                                          exported := false }
              else e } }
        .ok false (bytesOf 2 ((unpackWords op.got).getD 130 0).toNat)

/-! ### Codings -/

/-- An image built for an address (R5, R6, R8) is sound, its header names the address and the volume with format 0,
and its data words are those given; an image and its per-word values read back from the cells as they were written
(R128). The model's own choices in it: log entry 9: the packing of a cell. -/
def Obligations.ImageCodings : Prop :=
  (∀ (a : Addr) (vol : BitVec 12) (data : List Word), data.length = 128 →
    let img := buildImage a vol data
    img.length = 131 ∧ soundImage img = true ∧ dataWords img = data ∧
      imageHeader img = { cyl := a.cyl.val, head := a.head.val, format := 0, sector := a.sector.val,
                          volume := vol.toNat }) ∧
  (∀ img : List Word, img.length = 131 → unpackWords (packWords img) = img) ∧
  ∀ vals : List Nat, vals.length = 131 → (∀ v ∈ vals, v < 16) → unpackValues (packValues vals) = vals

/-- A frame (R154) is the sync byte, the length high byte first, the kind, the tag, the payload and the check high
byte first, the check being the rotate-add of length, kind, tag and payload: so it is sent, a notice with tag 0; and taken
byte by byte in HUNT it is a good frame whose request joins a queue of fewer than 4 as it was sent. -/
def Obligations.FrameRoundTrip : Prop :=
  (∀ tx : TxFrame, tx.bytes = match tx with
    | .reply r => frameBytes r.kind r.tag r.payload
    | .notice n => frameBytes n.note.body.kind 0 n.payload) ∧
  ∀ (kind tag : Byte) (payload : List Byte) (b : Board) (l : Link), payload.length ≤ 512 →
    (∃ (lenHigh lenLow checkHigh checkLow : Byte),
      frameBytes kind tag payload =
        [0xC3, lenHigh, lenLow, kind, tag] ++ payload ++ [checkHigh, checkLow] ∧
      lenHigh.toNat * 256 + lenLow.toNat = payload.length ∧
      checkHigh ++ checkLow =
        ([lenHigh, lenLow, kind, tag] ++ payload).foldl (fun c x => c.rotateLeft 1 + x.setWidth 16) (0 : Word)) ∧
    (1 ≤ kind.toNat → kind.toNat ≤ 0x3F → l.framer.phase = .hunt → l.queue.length < 4 →
      (frameBytes kind tag payload).foldl (fun p x => takeByte p.1 p.2 x) (b, l) =
        (b, { l with framer := Framer.hunting,
                     queue := l.queue ++ [{ kind := kind, tag := tag, payload := payload }] }))

/-! ### Requests -/

/-- The enquiries of R166 and GET_LADDER (R168) answer the request in hand OK and change nothing; a drive above 3 is
refused RANGE. GET_DRIVE gives the arbiter's fields (R89), the live position (R18), the record's phase, the emit buffer
and its address, the live settings (R22) and auto-salvage (R103), the channel's fields (R53) and the tracker's (R52); its
codes count each list's names in their order (R163). The model's own choices in it: log entry 10: the widths of the
reply fields; log entry 56 (an UNKNOWN head cylinder is an absent field) and log entry 76 (wrap suppression and speed
doubt are sent as marks). -/
def Obligations.Enquiries : Prop :=
  ([Owner.liveIdle, .liveBusy, .taking, .enginePosition, .enginePass, .engineRestore, .offline].map Owner.code =
      List.range 7 ∧
    [ShareMode.liveFirst, .salvageFirst, .salvageOnly, .liveOnly].map ShareMode.code = List.range 4 ∧
    [Phase.none, .held, .seeking, .awaitingSlot, .transfer].map Phase.code = List.range 5 ∧
    [EmitState.invalid, .filling, .valid].map EmitState.code = List.range 3 ∧ EmitState.code .absorbing = 0 ∧
    [TrackerState.searching, .locked, .freeRun].map TrackerState.code = List.range 3 ∧
    [Offset.zero, .inward, .outward].map Offset.code = List.range 3 ∧
    [Grade.a, .b, .c].map Grade.code = List.range 3 ∧
    ∀ (x : LiveSetup) (y : PassSetup), [Setup.none, .live x, .pass y].map Setup.code = List.range 3) ∧
  ∀ s : State,
    (s.inHand 0x01 [] → Answers .identify s s.board .ok false
      ([0x5A, 0x56, 0x71, 0x00, 1, 4, 0x14, 0x00, 0x04, 0x00] ++ bytesOf 4 s.board.ts.epoch ++
        [if s.board.ts.init.isSome then 1 else 0])) ∧
    (s.inHand 0x02 [] → Answers .getTime s s.board .ok false (bytesOf 5 s.board.now.toNat)) ∧
    (∀ d : DriveNo, s.inHand 0x03 [byteOf d.val] →
      let x := s.board.drv d
      let da := x.da
      let mark (b : Bool) : Byte := if b then 1 else 0
      let opt (w : Nat) : Option (List Byte) → List Byte
        | some bs => 1 :: bs
        | none => 0 :: List.replicate w 0
      let since (unit : Nat) (t : Time) : List Byte := bytesOf 4 (min (2 ^ 32 - 1) ((s.board.now - t).toNat / unit))
      Answers .getDrive s s.board .ok false
        ([byteOf da.owner.code] ++ opt 1 (da.served.map fun r => [byteOf r.id]) ++ [mark da.held] ++
          opt 4 (da.holdStart.map (since 1)) ++ opt 2 (da.headCyl.map fun c => bytesOf 2 c.val) ++
          opt 4 (da.enginePos.map fun q => bytesOf 2 q.cyl ++ [byteOf q.head, byteOf q.offset.code]) ++
          [mark da.seekFault, mark da.lost] ++ opt 4 (da.offlineStart.map (since 1000)) ++
          [byteOf da.share.mode.code] ++ opt 1 (da.share.pending.map fun m => [byteOf m.code]) ++
          bytesOf 2 da.share.hold ++ bytesOf 2 da.share.grace ++ bytesOf 2 da.share.starve ++
          bytesOf 2 x.lp.pos.cyl.val ++ [byteOf x.lp.pos.head.val, mark x.lp.pos.established] ++
          [byteOf x.lp.cmd.phase.code, byteOf x.lp.buf.state.code] ++
          (let a := x.lp.buf.addr
           opt 5 (if x.lp.buf.state = .filling ∨ x.lp.buf.state = .valid then
             some ([byteOf a.drive.val] ++ bytesOf 2 a.cyl.val ++ [byteOf a.head.val, byteOf a.sector.val])
           else none)) ++
          [mark x.lp.sub, byteOf x.lp.grade.code, mark x.lp.divert, mark (s.board.re.auto.get d)] ++
          [BitVec.ofInt 8 x.rc.shift, byteOf x.rc.offset.code, mark x.rc.settling, byteOf x.rc.setup.code] ++
          [byteOf x.rt.state.code, byteOf x.rt.position] ++ bytesOf 4 x.rt.revCount ++ [mark x.rt.suppress] ++
          opt 5 (x.rt.lastIndex.map fun t => bytesOf 5 t.toNat) ++ [byteOf x.rt.history.length] ++
          opt 4 (if x.rt.history.length = 8 then some (bytesOf 4 (x.rt.history.sum / 8)) else none) ++
          [mark x.rt.doubt, byteOf x.rt.inBand] ++ bytesOf 2 x.rt.slipCount)) ∧
    (∀ d : DriveNo, s.inHand 0x06 [byteOf d.val] →
      Answers .getProfile s s.board .ok false
        (bytesOf 2 (s.board.drv d).profile.cylinders ++
          [byteOf (s.board.drv d).profile.heads, byteOf (s.board.drv d).profile.sectors] ++
          volumeBytes (s.board.drv d).profile.volume ++ bytesOf 2 (s.board.drv d).profile.period)) ∧
    (∀ x : Byte, 3 < x.toNat →
      (s.inHand 0x03 [x] → Answers .getDrive s s.board .range false []) ∧
      (s.inHand 0x06 [x] → Answers .getProfile s s.board .range false [])) ∧
    (s.inHand 0x09 [] → Answers .getLadder s s.board .ok false
      (byteOf s.board.re.ladder.length :: s.board.re.ladder.flatMap fun st =>
        [BitVec.ofInt 8 st.shift, byteOf st.offset.code, if st.recal then 1 else 0, byteOf st.passes]))

/-- The lists of jobs, of the store log and of keep entries, and GET_JOB, answer the request in hand and change
nothing (R90, R136, R145, R163, R169, R171). GET_JOB gives the job part of a live job, the sector part of a sector of a
SALVAGE or of a RELAY; a part above 16 is RANGE; an id that no live job holds, a sector part of a SURVEY and one of a
sector outside the target set are NOT_FOUND. LIST_KEEP gives up to 32 entries from the address on, with whether more
follow and the next address; NOT_READY while the store initialises, RANGE for an address no pack can hold. The codes
count each list's names in their order. The model's own choices in it: log entry 10: the widths of the reply fields; 43
and 66 (the tally), 54 (a RELAY's status bytes) and 65 (fields a kind does not have are sent as they stand). -/
def Obligations.Lists : Prop :=
  ([JobKind.salvage, .relay, .survey].map JobKind.code = List.range 3 ∧
    [JobState.waiting, .active, .settling].map JobState.code = List.range 3 ∧
    [TakeLevel.patient, .pressing].map TakeLevel.code = List.range 2 ∧
    [RelayStep.prepare, .write, .verify].map RelayStep.code = List.range 3 ∧
    [SectorStatus.pending, .provisional, .resolved, .ambiguous, .misplaced, .superseded].map SectorStatus.code =
      List.range 6 ∧
    (∀ n, PassTag.byte (.step n) = byteOf n) ∧ PassTag.byte .live = 0xFF ∧ PassTag.byte .prepare = 0xFE) ∧
  ∀ s : State,
    let mark (b : Bool) : Byte := if b then 1 else 0
    let opt (w : Nat) : Option (List Byte) → List Byte
      | some bs => 1 :: bs
      | none => 0 :: List.replicate w 0
    (s.inHand 0x0D [] → Answers .listJobs s s.board .ok false
      (byteOf s.board.re.jobs.length :: s.board.re.jobs.flatMap fun j =>
        [byteOf j.id, byteOf j.kind.code, byteOf j.drive.val, byteOf j.state.code] ++ bytesOf 5 j.filed.toNat)) ∧
    (s.inHand 0x16 [] → Answers .getStoreLog s s.board .ok false
      (byteOf s.board.sk.log.length :: s.board.sk.log.flatMap LogEntry.bytes ++
        bytesOf 4 s.board.sk.address ++ bytesOf 2 s.board.sk.interval ++
        [if s.board.sk.waiting then 1 else 0])) ∧
    (∀ id part : Byte, s.inHand 0x0C [id, part] →
      let k := part.toNat - 1
      let ok (fields : List Byte) : Prop := Answers .getJob s s.board .ok false fields
      (16 < part.toNat → Answers .getJob s s.board .range false []) ∧
      (part.toNat ≤ 16 → s.board.jobById id.toNat = none → Answers .getJob s s.board .notFound false []) ∧
      ∀ j, part.toNat ≤ 16 → s.board.jobById id.toNat = some j →
        let sectors := match j.kind with
          | .salvage => j.sectors.map (·.sector)
          | .relay => j.relay.map (·.sector)
          | .survey => []
        let status (n : Nat) : Byte := match j.kind with
          | .salvage => ((j.sectorRec n).map fun r => byteOf r.status.code).getD 0xFF
          | .relay => if (j.relayRec n).isSome then 0 else 0xFF
          | .survey => 0xFF
        (part = 0 → ok
          ([byteOf j.id, byteOf j.kind.code, byteOf j.drive.val, byteOf j.state.code] ++
            (if j.kind = .survey then
              bytesOf 2 j.cyl.val ++ bytesOf 2 j.endCyl.val ++
                ([byteOf j.drive.val] ++ bytesOf 2 j.curCyl ++ [byteOf j.curHead]) ++ bytesOf 2 j.tracksFound
            else [byteOf j.drive.val] ++ bytesOf 2 j.cyl.val ++ [byteOf j.head.val]) ++
            bytesOf 2 (sectorSet sectors).toNat ++ [byteOf j.accept.code, byteOf j.repeats, mark j.retain] ++
            [byteOf j.step, byteOf j.passes, byteOf j.rep, mark j.exhausted, mark j.recal] ++
            (match j.tally with
              | some (pass, count) => bytesOf 2 pass ++ [byteOf count]
              | none => [0, 0, 0]) ++
            bytesOf 2 j.total ++ bytesOf 2 j.abandoned ++ [byteOf j.seekFails, byteOf j.level.code] ++
            bytesOf 5 j.since.toNat ++ bytesOf 5 j.filed.toNat ++
            [byteOf j.relayStep.code, byteOf j.stepPass, mark j.stale, mark j.written] ++
            (List.range 16).map status)) ∧
        (1 ≤ part.toNat → (j.kind = .survey ∨ (j.kind = .salvage ∧ j.sectorRec k = none) ∨
            (j.kind = .relay ∧ j.relayRec k = none)) →
          Answers .getJob s s.board .notFound false []) ∧
        (∀ r, 1 ≤ part.toNat → j.kind = .salvage → j.sectorRec k = some r →
          let place : Byte :=
            if s.board.su.flight.any (fun f => f.job = j.serial ∧ f.sector = r.sector) then 2
            else if (j.serial, r.sector) ∈ s.board.su.queue then 1 else 0
          ok ([byteOf r.status.code, place, mark r.slot.isSome] ++
            opt 9 (r.best.map fun x =>
              [byteOf x.rating.grade.code, byteOf x.rating.flips, byteOf x.rating.minConf, byteOf x.rating.used] ++
                bytesOf 5 x.time.toNat) ++
            [byteOf r.caps.length] ++ r.caps.flatMap fun c =>
              bytesOf 2 c.slot ++ [mark c.held, mark c.lock] ++
                if c.held then
                  [c.tag.byte] ++ bytesOf 2 c.passNo ++ [BitVec.ofInt 8 c.shift, byteOf c.offset.code] ++
                    bytesOf 2 c.total ++ bytesOf 5 c.time.toNat
                else List.replicate 12 0)) ∧
        (∀ r, 1 ≤ part.toNat → j.kind = .relay → j.relayRec k = some r →
          let source : Byte :=
            if (s.board.ts.entry (j.track.addr r.sector)).any (!·.damaged) then 1
            else if r.image.isSome then 2 else 0
          ok ([source] ++ opt 2 (r.image.map fun c => bytesOf 2 c.slot) ++ [mark r.verified]))) ∧
    ∀ p : List Byte, s.inHand 0x10 p →
      (s.board.ts.init ≠ none → Answers .listKeep s s.board .notReady false []) ∧
      (s.board.ts.init = none → readAddr p 0 = none → Answers .listKeep s s.board .range false []) ∧
      ∀ a : Addr, readAddr p 0 = some a → s.board.ts.init = none →
        let found := s.board.ts.dir.filter fun e => a.key ≤ e.addr.key
        Answers .listKeep s s.board .ok false
          ([byteOf (min 32 found.length), if 32 < found.length then 1 else 0] ++
            (match found[32]? with
              | some e => 1 :: e.addr.bytes
              | none => List.replicate 6 0) ++
            (found.take 32).flatMap KeepEntry.bytes)

/-- LIST_SUSPECTS gives the count of the list, the count of the page and the page's entries, and refuses a page above 3;
DROP_SUSPECT removes the entry of its track, with no notice and no examination, or answers NOT_FOUND (R163, R170), or
RANGE for a track no pack can hold (R165). The
model's own choices in it: log entry 10: the order and the widths of the reply's fields. -/
def Obligations.SuspectRequests : Prop :=
  (∀ p : List Byte,
     let byte (i : Nat) : Nat := (p.getD i 0).toNat
     let pair (i : Nat) : Nat := 256 * byte i + byte (i + 1)
     (3 < byte 0 ∨ 511 < pair 1 ∨ 3 < byte 3 → readTrack p 0 = none) ∧
     ∀ t : Track, byte 0 = t.drive.val → pair 1 = t.cyl.val → byte 3 = t.head.val → readTrack p 0 = some t) ∧
  ∀ s : State,
    (∀ page : Byte, s.inHand 0x0E [page] →
      (3 < page.toNat → Answers .listSuspects s s.board .range false []) ∧
      (page.toNat ≤ 3 →
        let entries := (s.board.re.suspects.drop (16 * page.toNat)).take 16
        Answers .listSuspects s s.board .ok false
          ([byteOf s.board.re.suspects.length, byteOf entries.length] ++ entries.flatMap fun x =>
            x.track.bytes ++ setBytes x.mask ++ [byteOf x.count] ++ timeBytes x.first ++ timeBytes x.last ++
              [byteOf x.source.code]))) ∧
    (∀ p : List Byte, s.inHand 0x0F p → readTrack p 0 = none → Answers .dropSuspect s s.board .range false []) ∧
    ∀ (p : List Byte) (t : Track), s.inHand 0x0F p → readTrack p 0 = some t →
      ((∃ x ∈ s.board.re.suspects, x.track = t) →
        Answers .dropSuspect s
          { s.board with re := { s.board.re with
              suspects := s.board.re.suspects.filter (·.track ≠ t) } } .ok false []) ∧
      ((∀ x ∈ s.board.re.suspects, x.track ≠ t) → Answers .dropSuspect s s.board .notFound false [])

/-- SET_PROFILE (R10, R11, R12, R41, R167): its payload holds the drive, the cylinders, H, S, the volume and the nominal
period. A drive above 3 is RANGE; with a live job on the drive or the engine at it, CONFLICT; with a count or a volume
out of its range, RANGE (R165); otherwise the profile is recorded, the period brought into 15,000..40,000 with the
adjusted mark, 0xFFFF meaning any volume; the position is brought below the sectors, READY or OFFLINE is raised and an
examination follows. Stated with the buffer INVALID and the period unchanged. -/
def Obligations.SetProfile : Prop :=
  (∀ p : List Byte,
     let byte (i : Nat) : Nat := (p.getD i 0).toNat
     let pair (i : Nat) : Nat := 256 * byte i + byte (i + 1)
     let cylinders := pair 1
     let heads := byte 3
     let sectors := byte 4
     let volume := pair 5
     let period := pair 7
     let fits := 1 ≤ cylinders ∧ cylinders ≤ 512 ∧ 1 ≤ heads ∧ heads ≤ 4 ∧ 8 ≤ sectors ∧ sectors ≤ 16 ∧
       (volume ≤ 4095 ∨ volume = 0xFFFF)
     (¬ fits → readProfile p = none) ∧
     (fits → readProfile p = some
       ({ cylinders := cylinders, heads := heads, sectors := sectors,
          volume := if volume = 0xFFFF then none else some (BitVec.ofNat 12 volume),
          period := max 15000 (min 40000 period) },
        Decidable.decide (period < 15000 ∨ 40000 < period)))) ∧
  ∀ (p : List Byte) (s : State), s.inHand 0x04 p →
    (3 < (p.getD 0 0).toNat → Answers .setProfile s s.board .range false []) ∧
    ∀ d : DriveNo, (p.getD 0 0).toNat = d.val →
      let x := s.board.drv d
      let engaged := x.da.owner.engine = true ∨ x.da.owner = .taking ∨ ∃ j ∈ s.board.re.jobs, j.drive = d
      (engaged → Answers .setProfile s s.board .conflict false []) ∧
      (¬ engaged →
        (readProfile p = none → Answers .setProfile s s.board .range false []) ∧
        ∀ pr adjusted, readProfile p = some (pr, adjusted) → x.lp.buf.state = .invalid →
          pr.period = x.profile.period →
          Answers .setProfile s
            { s.board with
              exam := true,
              drives := s.board.drives.set d { x with
                profile := pr, rt := { x.rt with position := x.rt.position % pr.sectors } },
              out := s.board.out ++
                [⟨some d, s.board.now, if x.pins.ready then .ready none else .offline x.da.owner none⟩] }
            .ok adjusted
            (bytesOf 2 pr.cylinders ++ [byteOf pr.heads, byteOf pr.sectors] ++ volumeBytes pr.volume ++
              bytesOf 2 pr.period))

/-- SET_SHARE (R22, R72, R103, R167): its payload holds the drive, the mode, substitution, serve grade, diversion,
auto-salvage and the three times in ms. A drive or a mode above 3, a mark above 1 or a grade above C is RANGE (R165); the
hold limit is brought into 30..250, the idle grace into 5..500 and the starve limit into 100..60,000, with the adjusted
mark. At a drive without jobs, held command or buffered image the live settings, the limits and auto-salvage are
recorded, the mode is in force at once where the arbiter is LIVE_IDLE, OFFLINE or in ENGINE_RESTORE and pending
otherwise, and an examination follows. The model's own choices in it: log entry 10: the layout of the reply. -/
def Obligations.SetShare : Prop :=
  (∀ p : List Byte,
     let byte (i : Nat) : Nat := (p.getD i 0).toNat
     let pair (i : Nat) : Nat := 256 * byte i + byte (i + 1)
     let hold := max 30 (min 250 (pair 6))
     let grace := max 5 (min 500 (pair 8))
     let starve := max 100 (min 60000 (pair 10))
     (3 < byte 1 ∨ 1 < byte 2 ∨ 2 < byte 3 ∨ 1 < byte 4 ∨ 1 < byte 5 → readShare p = none) ∧
     ∀ (mode : ShareMode) (grade : Grade),
       [ShareMode.liveFirst, .salvageFirst, .salvageOnly, .liveOnly][byte 1]? = some mode → byte 2 ≤ 1 →
       [Grade.a, .b, .c][byte 3]? = some grade → byte 4 ≤ 1 → byte 5 ≤ 1 →
       readShare p = some
         ({ mode := mode, sub := byte 2 = 1, grade := grade, divert := byte 4 = 1, auto := byte 5 = 1, hold := hold,
            grace := grace, starve := starve },
          Decidable.decide (hold ≠ pair 6 ∨ grace ≠ pair 8 ∨ starve ≠ pair 10))) ∧
  ∀ (p : List Byte) (s : State), s.inHand 0x07 p →
    (3 < (p.getD 0 0).toNat ∨ readShare p = none → Answers .setShare s s.board .range false []) ∧
    ∀ d : DriveNo, (p.getD 0 0).toNat = d.val →
      let x := s.board.drv d
      ∀ r adjusted, readShare p = some (r, adjusted) → x.lp.buf.state = .invalid → x.da.held = false →
        (∀ j ∈ s.board.re.jobs, j.drive ≠ d) →
        let now := x.da.owner = .liveIdle ∨ x.da.owner = .offline ∨ x.da.owner = .engineRestore
        let share : Share :=
          { mode := if now then r.mode else x.da.share.mode, pending := if now then none else some r.mode,
            hold := r.hold, grace := r.grace, starve := r.starve }
        Answers .setShare s
          { s.board with
            exam := true,
            re := { s.board.re with auto := s.board.re.auto.set d r.auto },
            drives := s.board.drives.set d { x with
              lp := { x.lp with sub := r.sub, grade := r.grade, divert := r.divert },
              da := { x.da with share := share } } }
          .ok adjusted
          ([if r.sub then 1 else 0, byteOf r.grade.code, if r.divert then 1 else 0, if r.auto then 1 else 0] ++
            bytesOf 2 r.hold ++ bytesOf 2 r.grace ++ bytesOf 2 r.starve ++ [byteOf share.mode.code] ++
            (match share.pending with
              | some m => [1, byteOf m.code]
              | none => [0, 0]))

/-- SET_SOLVE clamps K to 0..10 and the threshold to 1..56; SET_SCRUB records the greatest interval not above the one
asked, 16 for 1 to 15 and 0 for 0, and clears the tick count (R113, R148, R168). SET_LADDER's payload holds a step count
of 1 to 16 and 4 bytes for each step; any other count, an offset above OUT or a recalibrate value above 1 is RANGE; a
shift is brought into -4..+4 and a pass count into 1..4, with the adjusted mark. With no SALVAGE job the ladder is
replaced and nothing else changes (R94, R168). -/
def Obligations.SetLadderSolveScrub : Prop :=
  (∀ p : List Byte,
     let byte (i : Nat) : Nat := (p.getD i 0).toNat
     let n := byte 0
     let shift (i : Nat) : Int := (p.getD (1 + 4 * i) 0).toInt
     let passes (i : Nat) : Nat := byte (4 + 4 * i)
     let within := 1 ≤ n ∧ n ≤ 16 ∧ ∀ i, i < n → byte (2 + 4 * i) ≤ 2 ∧ byte (3 + 4 * i) ≤ 1
     let clamped := ∃ i, i < n ∧ (shift i < -4 ∨ 4 < shift i ∨ passes i = 0 ∨ 4 < passes i)
     (¬ within → readLadder p = none) ∧
     (within → ∃ l adjusted, readLadder p = some (l, adjusted) ∧ (adjusted = true ↔ clamped) ∧ l.length = n ∧
       ∀ i, i < n → ∃ offset, [Offset.zero, .inward, .outward][byte (2 + 4 * i)]? = some offset ∧
         l[i]? = some { shift := max (-4) (min 4 (shift i)), offset := offset, recal := byte (3 + 4 * i) = 1,
                        passes := max 1 (min 4 (passes i)) })) ∧
  ∀ s : State,
    (∀ k t : Byte, s.inHand 0x05 [k, t] →
      let k' := min 10 k.toNat
      let t' := max 1 (min 56 t.toNat)
      Answers .setSolve s { s.board with su := { s.board.su with k := k', threshold := t' } } .ok
        (Decidable.decide (k' ≠ k.toNat ∨ t' ≠ t.toNat)) [byteOf k', byteOf t']) ∧
    (∀ high low : Byte, s.inHand 0x18 [high, low] →
      let n := high.toNat * 256 + low.toNat
      ∃ m, (m = 0 ↔ n = 0) ∧ (m = 0 ∨ m = 16 ∨ m = 32 ∨ m = 64 ∨ m = 128 ∨ m = 256 ∨ m = 512 ∨ m = 1024) ∧
        (16 ≤ n → m ≤ n ∧ (m < 1024 → n < 2 * m)) ∧ (0 < n → n < 16 → m = 16) ∧
        Answers .setScrub s
          { s.board with sk := { s.board.sk with
              interval := m, tickCount := 0, waiting := if m = 0 then false else s.board.sk.waiting } }
          .ok (Decidable.decide (m ≠ n)) (bytesOf 2 m)) ∧
    ∀ p : List Byte, s.inHand 0x08 p →
      (readLadder p = none → Answers .setLadder s s.board .range false []) ∧
      ∀ l adjusted, readLadder p = some (l, adjusted) → (∀ j ∈ s.board.re.jobs, j.kind ≠ .salvage) →
        Answers .setLadder s { s.board with re := { s.board.re with ladder := l } } .ok adjusted
          (byteOf l.length :: l.flatMap fun st =>
            [BitVec.ofInt 8 st.shift, byteOf st.offset.code, if st.recal then 1 else 0, byteOf st.passes])

/-- FILE_JOB of a SURVEY (R90, R91, R92, R104, R165, R169): of its 12 bytes it reads the drive, the start and the end
cylinder; a kind above 2, a drive above 3, a cylinder above 511 or a range beyond the profile is RANGE, a second
SURVEY of the drive CONFLICT, a ninth job NO_ROOM; otherwise, on a drive not lost, the job is placed at the end of the
table under the next id that no live job holds, WAITING and PATIENT from now, with nothing found, at the start cylinder
and head 0, and the reply gives the id and the repeat count. The end of its pass (R79, R102, R104): the failure mask, if
not empty, puts the pass's track on the suspect list with source SURVEY, and the examination follows at once (R103);
after a full pass the track counts as found where the mask is not empty, and the current track moves to the next head,
or to head 0 of the next cylinder; after an abandoned one it stays. Past the end cylinder the job finishes COMPLETE, else
it is WAITING; then the drive is handed back, with LIVE_ONLY pending or under speed doubt (R72, R75, R80), at a drive
with the heads at the live cylinder. Stated of a track without a job and not listed. The model's own choices in it: log
entry 21 (where the examination is made), log entry 33 (a pass asked to end before its first slot ends at the next
pulse) and log entry 35 (the write-protect line comes with the pulse). -/
def Obligations.FileSurvey : Prop :=
  (∀ p : List Byte,
     let byte (i : Nat) : Nat := (p.getD i 0).toNat
     let pair (i : Nat) : Nat := 256 * byte i + byte (i + 1)
     (2 < byte 0 ∨ (byte 0 = 2 ∧ (3 < byte 1 ∨ 511 < pair 2 ∨ 511 < pair 5)) → readFile p = none) ∧
     ∀ (d : DriveNo) (first last : Fin 512),
       byte 0 = 2 → byte 1 = d.val → pair 2 = first.val → pair 5 = last.val →
       readFile p = some
         ({ kind := .survey, drive := d, cyl := first, head := 0, endCyl := last, target := 0, accept := .b,
            repeats := 1, retain := false }, false)) ∧
  (∀ (p : List Byte) (s : State), s.inHand 0x0A p → 2 ≤ u8 p 0 →
     (readFile p = none → Answers .fileJob s s.board .range false []) ∧
     ∀ (r : FileReq) (adjusted : Bool), readFile p = some (r, adjusted) → (s.board.drv r.drive).da.lost = false →
     let pr := (s.board.drv r.drive).profile
     let inRange := r.cyl.val < pr.cylinders ∧ r.endCyl.val < pr.cylinders ∧ r.cyl ≤ r.endCyl
     let second := ∃ j ∈ s.board.re.jobs, j.kind = .survey ∧ j.drive = r.drive
     (¬ inRange → Answers .fileJob s s.board .range false []) ∧
     (inRange → second → Answers .fileJob s s.board .conflict false []) ∧
     (inRange → ¬ second → 8 ≤ s.board.re.jobs.length → Answers .fileJob s s.board .noRoom false []) ∧
     (inRange → ¬ second → s.board.re.jobs.length < 8 →
       ∃ id, s.board.givesId id ∧ 1 ≤ id ∧ id ≤ 255 ∧
         Answers .fileJob s
           { s.board with re := { s.board.re with
               jobs := s.board.re.jobs ++ [r.job s.board id [] []], lastId := id,
               nextSerial := s.board.re.nextSerial + 1 } }
           .ok adjusted [byteOf id, byteOf r.repeats])) ∧
  ∀ (d : DriveNo) (wp : Bool) (r : JobRef) (j : Job) (s : State),
    let x := s.board.drv d
    let now := s.board.now
    let heads := x.profile.heads
    let mask := x.da.surveyMask
    let track : Track := { drive := d, cyl := Fin.ofNat 512 x.da.plan.cyl, head := Fin.ofNat 4 x.da.plan.head }
    let full := x.profile.sectors ≤ x.da.slots ∧ x.da.missed = false
    let entry : Suspect :=
      { track := track, mask := mask, count := 1, first := now, last := now, source := .survey }
    let pulsed : Board := { s.board with drives := s.board.drives.set d (x.passPulsed wp) }
    let b : Board :=
      if mask = 0 then pulsed
      else Board.examine
        { pulsed with exam := true, re := { s.board.re with suspects := s.board.re.suspects ++ [entry] },
                      out := [⟨some d, now, .suspectAdded entry⟩] }
    s.quiet → s.board.re.lawful → x.passOver → s.board.noWriteFill d → x.da.served = some r →
    s.board.job r.serial = some j →
    j.kind = .survey → j.drive = d → s.board.trackJob track = none →
    (∀ y ∈ s.board.re.suspects, y.track ≠ track) → s.board.re.suspects.length < 64 →
    let counted : Job :=
      { j with total := min 65535 (j.total + 1),
               abandoned := if full then j.abandoned else min 65535 (j.abandoned + 1) }
    let moved : Job :=
      if full then
        { counted with
          tracksFound := if mask = 0 then j.tracksFound else min 2048 (j.tracksFound + 1),
          curCyl := if j.curHead + 1 < heads then j.curCyl else j.curCyl + 1,
          curHead := if j.curHead + 1 < heads then j.curHead + 1 else 0 }
      else counted
    let ended (jobs : List Job) : Board :=
      { b with drives := b.drives.set d ((b.drv d).handedBack now), re := { b.re with jobs := jobs } }
    (moved.curCyl ≤ j.endCyl.val →
      Completes (.sectorPulse d wp) s
        (ended (b.re.jobs.map fun q =>
          if q.serial = r.serial then { moved with state := .waiting, level := .patient, since := now } else q))) ∧
    (j.endCyl.val < moved.curCyl → s.board.noSolve r.serial → s.board.noAuto → j.sectors = [] → j.relay = [] →
      let c := ended (b.re.jobs.filter (·.serial ≠ r.serial))
      Completes (.sectorPulse d wp) s
        { c with exam := false, out := c.out ++ [⟨some d, now, .jobDone moved .complete⟩] })

/-- CANCEL_JOB (R110, R112): an id that no live job holds is NOT_FOUND; a job of any kind and state finishes CANCELLED,
with the reply OK and JOB_DONE after it: its pairs leave the solve queue, its captures, slots aside, PREPARE images and
reserved slots are FREE, and the pass that serves it is to end at the boundary, or the positioning to be abandoned (R82);
a RELAY that has written reports its whole track with source RELAY (R102, R108). Stated with no solve of the job in
flight, no store operation and no buffer being written, no diversion and auto-salvage off, and of a written RELAY on a
track that no other job works on and that is not listed. CLEAR_STORE_LOG empties the log and answers with the count it
held (R145, R171). -/
def Obligations.CancelAndClear : Prop :=
  ∀ s : State,
    (∀ id : Byte, s.inHand 0x0B [id] →
      (s.board.jobById id.toNat = none → Answers .cancelJob s s.board .notFound false []) ∧
      ∀ j, s.board.jobById id.toNat = some j → s.board.job j.serial = some j → s.board.noAuto →
        (∀ f, s.board.su.flight = some f → f.job ≠ j.serial) → s.board.ts.ops = [] →
        (∀ e, (s.board.drv e).rc.buf0.state ≠ .writing ∧ (s.board.drv e).rc.buf1.state ≠ .writing ∧
          (s.board.drv e).lp.diversion = none) →
        let now := s.board.now
        let x := s.board.drv j.drive
        let served := ∃ r, x.da.served = some r ∧ r.serial = j.serial
        let own := (j.sectors.flatMap fun r => r.caps.map (·.slot)) ++
          j.relay.flatMap fun r => r.aside.toList ++ (r.image.map (·.slot)).toList
        let ended (x : Drive) (suspects : List Suspect) (more : List Note) : Prop :=
          Answers .cancelJob s
            { s.board with
              drives := s.board.drives.set j.drive x,
              ts := { s.board.ts with
                keep := s.board.ts.keep.filter fun p => ∀ q ∈ j.sectors, q.slot ≠ some p.1,
                pool := s.board.ts.pool.filter (· ∉ own) },
              su := { s.board.su with queue := s.board.su.queue.filter (·.1 ≠ j.serial) },
              re := { s.board.re with
                jobs := s.board.re.jobs.filter (·.serial ≠ j.serial), suspects := s.board.re.suspects ++ suspects },
              exam := false,
              out := s.board.out ++ ⟨some j.drive, now, .jobDone j .cancelled⟩ :: more }
            .ok false []
        ((j.kind = .relay → j.written = false) →
          (¬ served ∨ (x.da.owner ≠ .enginePass ∧ x.da.owner ≠ .enginePosition) → ended x [] []) ∧
          (served → x.da.owner = .enginePass → ended { x with da := { x.da with atBoundary := true } } [] []) ∧
          (served → x.da.owner = .enginePosition → ended { x with da := { x.da with abandon := true } } [] [])) ∧
        (j.kind = .relay → j.written = true → ¬ served →
          (∀ i ∈ s.board.re.jobs, i.serial ≠ j.serial → i.onTrack j.track = false) →
          (∀ y ∈ s.board.re.suspects, y.track ≠ j.track) → s.board.re.suspects.length < 64 →
          x.profile.sectors ≤ 16 →
          let entry : Suspect :=
            { track := j.track, mask := sectorSet (List.range x.profile.sectors), count := 1, first := now,
              last := now, source := .relay }
          ended x [entry] [⟨some j.drive, now, .suspectAdded entry⟩])) ∧
    (s.inHand 0x17 [] →
      Answers .clearStoreLog s { s.board with sk := { s.board.sk with log := [] } } .ok false
        [byteOf s.board.sk.log.length])

/-- RELEASE_SECTOR (R140): NOT_READY while the store initialises, RANGE for an address no pack can hold or a force mark
above 1 (R143, R164, R165); once the store is ready, no entry is NOT_FOUND, a live RELAY of the track CONFLICT, a
DIVERTED entry without the force mark DENIED; otherwise the entry is released, its slot HELD while a diversion
holds it, DRAINING while an operation does and FREE otherwise (R133), and, the buffer not holding the address,
nothing else changes but that an examination follows. -/
def Obligations.ReleaseSector : Prop :=
  (∀ (p : List Byte) (s : State), s.inHand 0x15 p →
    (s.board.ts.init ≠ none → Answers .releaseSector s s.board .notReady false []) ∧
    (s.board.ts.init = none → readAddr p 0 = none ∨ 1 < (p.getD 5 0).toNat →
      Answers .releaseSector s s.board .range false [])) ∧
  ∀ (p : List Byte) (a : Addr) (force : Bool) (s : State), s.inHand 0x15 p → readAddr p 0 = some a →
    (p.getD 5 0).toNat = (if force then 1 else 0) → s.board.ts.init = none →
    (s.board.ts.entry a = none → Answers .releaseSector s s.board .notFound false []) ∧
    ∀ e, s.board.ts.entry a = some e →
      let relay := ∃ j, s.board.trackJob a.track = some j ∧ j.kind = .relay
      (relay → Answers .releaseSector s s.board .conflict false []) ∧
      (¬ relay → e.isDiverted = true → force = false → Answers .releaseSector s s.board .denied false []) ∧
      (¬ relay → (e.isDiverted = false ∨ force = true) → (s.board.drv a.drive).lp.buf.addr ≠ a →
        Answers .releaseSector s
          { s.board with
            exam := true,
            ts := { s.board.ts with
              dir := s.board.ts.dir.filter (·.addr ≠ a),
              keep := if s.board.divertHolds e.slot then putKeep e.slot .held s.board.ts.keep
                      else if s.board.ts.slotHeld e.slot then putKeep e.slot .draining s.board.ts.keep
                      else s.board.ts.keep.filter (·.1 ≠ e.slot) } }
          .ok false [])

/-- FETCH_SECTOR, FETCH_CAPTURE, STORE_SECTOR and PATCH_WORD (R8, R136..R139): NOT_READY while the store initialises;
then RANGE for an address no pack can hold, and for a data word above 127 or, of a STORE_SECTOR, an address beyond the
profile; NOT_FOUND with no entry, no job or no such capture; DENIED for a STORE_SECTOR on a DIVERTED entry or a PATCH_WORD
of one DIVERTED or DAMAGED; NO_ROOM with no free keep slot (R164, R165). With what they name there, the reads or writes
of the slot are requested and the request stays in hand. A FETCH_CAPTURE names, of a SALVAGE, the held capture at its
index in the sector's set, and, of a RELAY, the sector's PREPARE image by index 0. -/
def Obligations.StoreRequests : Prop :=
  (∀ (p : List Byte) (i : Nat),
     let byte (n : Nat) : Nat := (p.getD n 0).toNat
     let cyl := 256 * byte (i + 1) + byte (i + 2)
     (3 < byte i ∨ 511 < cyl ∨ 3 < byte (i + 3) ∨ 15 < byte (i + 4) → readAddr p i = none) ∧
     ∀ a : Addr, byte i = a.drive.val → cyl = a.cyl.val → byte (i + 3) = a.head.val → byte (i + 4) = a.sector.val →
       readAddr p i = some a) ∧
  (∀ (j : Job) (k i : Nat),
     (j.kind = .survey → j.captureAt k i = none) ∧
     (j.kind = .salvage → (j.sectorRec k = none → j.captureAt k i = none) ∧
       ∀ r, j.sectorRec k = some r → j.captureAt k i = (r.caps.filter (·.held))[i]?) ∧
     (j.kind = .relay → (j.relayRec k = none ∨ 0 < i → j.captureAt k i = none) ∧
       ∀ r, j.relayRec k = some r → j.captureAt k 0 = r.image)) ∧
  ∀ (p : List Byte) (s : State), s.quiet →
    let opens (kind : OpKind) (slot : Nat) (todo : List Access) : Store :=
      { s.board.ts with ops := s.board.ts.ops ++
          [{ kind := kind, slot := slot, at_ := s.board.now, todo := todo, got := [], syn := [],
             double := false, wrote := [], spoiled := false, lastAt := s.board.now }] }
    let refuses (c : Instr) (status : Status) : Prop := Answers c s s.board status false []
    let byte (i : Nat) : Nat := (p.getD i 0).toNat
    (s.board.ts.init ≠ none →
      (s.inHand 0x11 p → refuses .fetchSector .notReady) ∧ (s.inHand 0x12 p → refuses .fetchCapture .notReady) ∧
      (s.inHand 0x13 p → refuses .storeSector .notReady) ∧ (s.inHand 0x14 p → refuses .patchWord .notReady)) ∧
    (s.board.ts.init = none →
      (readAddr p 0 = none →
        (s.inHand 0x11 p → refuses .fetchSector .range) ∧ (s.inHand 0x13 p → refuses .storeSector .range) ∧
        (s.inHand 0x14 p → refuses .patchWord .range)) ∧
      (∀ a, s.inHand 0x11 p → readAddr p 0 = some a →
        (s.board.ts.entry a = none → refuses .fetchSector .notFound) ∧
        ∀ e, s.board.ts.entry a = some e →
          Defers .fetchSector s { s.board with ts := opens (.fetchSector a) e.slot (slotReads e.slot 83) }) ∧
      (s.inHand 0x12 p →
        (s.board.jobById (byte 0) = none → refuses .fetchCapture .notFound) ∧
        ∀ j, s.board.jobById (byte 0) = some j →
          (j.captureAt (byte 1) (byte 2) = none → refuses .fetchCapture .notFound) ∧
          ∀ c, j.captureAt (byte 1) (byte 2) = some c →
            Defers .fetchCapture s
              { s.board with ts := opens (.fetchCapture j.serial (byte 1) c) c.slot (slotReads c.slot 83) }) ∧
      (∀ a, s.inHand 0x13 p → readAddr p 0 = some a →
        let within := withinProfile (s.board.drv a.drive).profile a.cyl.val a.head.val a.sector.val
        let diverted := (s.board.ts.entry a).any (·.isDiverted)
        (within = false → refuses .storeSector .range) ∧
        (within = true → diverted = true → refuses .storeSector .denied) ∧
        (within = true → diverted = false → s.board.ts.freeKeepSlot = none → refuses .storeSector .noRoom) ∧
        ∀ slot, within = true → diverted = false → s.board.ts.freeKeepSlot = some slot →
          let words := (List.range 128).map fun n => BitVec.ofNat 16 (256 * byte (5 + 2 * n) + byte (6 + 2 * n))
          let img := buildImage a (buildVolume (s.board.drv a.drive).profile) words
          let ts := opens (.storeSector a) slot (slotWrites slot img fullValues)
          Defers .storeSector s { s.board with ts := { ts with keep := putKeep slot .held s.board.ts.keep } }) ∧
      ∀ a, s.inHand 0x14 p → readAddr p 0 = some a →
        (127 < byte 5 → refuses .patchWord .range) ∧
        (byte 5 ≤ 127 → s.board.ts.entry a = none → refuses .patchWord .notFound) ∧
        ∀ e, byte 5 ≤ 127 → s.board.ts.entry a = some e →
          (e.damaged = true ∨ e.kind = .diverted → refuses .patchWord .denied) ∧
          (e.damaged = false → e.kind ≠ .diverted →
            let ts := opens (.patch a (byte 5) (BitVec.ofNat 16 (256 * byte 6 + byte 7))) e.slot
              (slotReads e.slot 66)
            Defers .patchWord s { s.board with ts := ts }))

/-- A request whose payload's length does not fit its kind is answered BAD_REQUEST when handled and changes nothing, and
so is one of a kind that names no request (R155, R165). The row of a request that is not the one in hand changes
nothing (the model's choice, log entry 4). -/
def Obligations.BadRequest : Prop :=
  ∀ s : State,
    (∀ c kind, (c, kind) ∈ requestRows →
      (∀ r, s.link.inHand = some r → r.kind = kind → lengthFits kind r.payload = false →
        Answers c s s.board .badRequest false []) ∧
      ((∀ r, s.link.inHand = some r → r.kind ≠ kind) → Completes c s s.board)) ∧
    ∀ r, s.link.inHand = some r →
      (r.kind.toNat = 0 ∨ 0x19 < r.kind.toNat → Answers .unknownRequest s s.board .badRequest false []) ∧
      (1 ≤ r.kind.toNat → r.kind.toNat ≤ 0x19 → Completes .unknownRequest s s.board)

/-- FILE_JOB of a SALVAGE or a RELAY (R90, R91, R92, R105, R165, R169). Of its 12 bytes a SALVAGE reads the track, the
target set, the grade and the repeat count, brought into 1..4 with the adjusted mark; a RELAY the track and RETAIN. While
the track's write gate is up it waits (R35). NOT_READY while the store initialises; RANGE for a track no pack can hold or
beyond the profile, a grade above C, an empty target set, a target at or above S or a mark above 1; CONFLICT with a job
on the track; NO_ROOM with 8 jobs, or without a free keep slot for each target without a DIVERTED or PLACED entry. One
that passes, on a drive not lost: the job is placed at the end of the table under the next id that no live job holds,
WAITING and PATIENT from now, the track leaves the suspect list, and the reply gives the id and the repeat count. Each
target of a SALVAGE, none with such an entry, is PENDING with no capture and no best result, and the lowest free keep
slots become RESERVED for them in order; every other keep slot stands as before. A RELAY takes every sector of the track
with no PREPARE image, and is in PREPARE, or in WRITE where each sector's entry can be its source. The model's own
choices in it: log entry 67 (the slots are given in ascending order) and log entry 83 (a field that fails its coding is
refused at once, with a gate up too). -/
def Obligations.FileSalvage : Prop :=
  (∀ p : List Byte,
     let byte (i : Nat) : Nat := (p.getD i 0).toNat
     let pair (i : Nat) : Nat := 256 * byte i + byte (i + 1)
     (byte 0 = 0 ∧ (3 < byte 1 ∨ 511 < pair 2 ∨ 3 < byte 4 ∨ 2 < byte 9) → readFile p = none) ∧
     (byte 0 = 1 ∧ (3 < byte 1 ∨ 511 < pair 2 ∨ 3 < byte 4 ∨ 1 < byte 11) → readFile p = none) ∧
     ∀ t : Track, byte 1 = t.drive.val → pair 2 = t.cyl.val → byte 4 = t.head.val →
       (∀ grade, byte 0 = 0 → [Grade.a, .b, .c][byte 9]? = some grade →
         readFile p = some
           ({ kind := .salvage, drive := t.drive, cyl := t.cyl, head := t.head, endCyl := 0,
              target := BitVec.ofNat 16 (pair 7), accept := grade, repeats := max 1 (min 4 (byte 10)),
              retain := false },
            Decidable.decide (byte 10 = 0 ∨ 4 < byte 10))) ∧
       (byte 0 = 1 → byte 11 ≤ 1 →
         readFile p = some
           ({ kind := .relay, drive := t.drive, cyl := t.cyl, head := t.head, endCyl := 0, target := 0,
              accept := .b, repeats := 1, retain := byte 11 = 1 }, false))) ∧
  (∀ (p : List Byte) (s : State), s.inHand 0x0A p → u8 p 0 ≤ 1 →
     let refuses (status : Status) : Prop := Answers .fileJob s s.board status false []
     (readFile p = none →
       (s.board.ts.init ≠ none → refuses .notReady) ∧ (s.board.ts.init = none → refuses .range)) ∧
     ∀ r adjusted, readFile p = some (r, adjusted) →
       let pr := (s.board.drv r.drive).profile
       let targets := maskSectors r.target 16
       let within := trackWithin pr r.cyl.val r.head.val = true ∧
         (r.kind = .salvage → targets ≠ [] ∧ ∀ k ∈ targets, k < pr.sectors)
       let needed := targets.filter fun k => !s.board.heldByHost (r.track.addr k)
       let full := 8 ≤ s.board.re.jobs.length ∨
         (r.kind = .salvage ∧ Config.keepSlots - s.board.ts.keep.length < needed.length)
       (s.quiet → s.board.gateOnTrack r.track = true → Defers .fileJob s { s.board with filing := some p }) ∧
       (s.board.gateOnTrack r.track = false →
         (s.board.ts.init ≠ none → refuses .notReady) ∧
         (s.board.ts.init = none → ¬ within → refuses .range) ∧
         (s.board.ts.init = none → within → s.board.trackJob r.track ≠ none → refuses .conflict) ∧
         (s.board.ts.init = none → within → s.board.trackJob r.track = none → full → refuses .noRoom))) ∧
  ∀ (p : List Byte) (r : FileReq) (adjusted : Bool) (s : State), s.inHand 0x0A p →
    readFile p = some (r, adjusted) → (s.board.drv r.drive).da.lost = false →
    s.board.gateOnTrack r.track = false → s.board.ts.init = none →
    trackWithin (s.board.drv r.drive).profile r.cyl.val r.head.val = true →
    s.board.trackJob r.track = none → s.board.re.jobs.length < 8 →
    let files (id : Nat) (keep : List (Nat × KeepState)) (j : Job) : Prop :=
      Answers .fileJob s
        { s.board with
          ts := { s.board.ts with keep := keep },
          re := { s.board.re with
            jobs := s.board.re.jobs ++ [j], lastId := id, nextSerial := s.board.re.nextSerial + 1,
            suspects := s.board.re.suspects.filter (·.track ≠ r.track) } }
        .ok adjusted [byteOf id, byteOf r.repeats]
    (r.kind = .salvage → r.target ≠ 0 →
      (∀ k ∈ maskSectors r.target 16, k < (s.board.drv r.drive).profile.sectors ∧
        s.board.heldByHost (r.track.addr k) = false) →
      (maskSectors r.target 16).length ≤ Config.keepSlots - s.board.ts.keep.length →
      (s.board.ts.keep.map (·.1)).Pairwise (· < ·) →
      ∃ (id : Nat) (slots : List Nat),
        let free (n : Nat) : Prop := s.board.ts.keepState n = none
        let keep := slots.foldl (fun ks n => putKeep n .reserved ks) s.board.ts.keep
        s.board.givesId id ∧ 1 ≤ id ∧ id ≤ 255 ∧ slots.length = (maskSectors r.target 16).length ∧
        slots.Pairwise (· < ·) ∧
        (∀ n ∈ slots, free n ∧ n < Config.keepSlots ∧ ∀ m, m < n → free m → m ∈ slots) ∧
        (∀ n, ({ s.board.ts with keep := keep } : Store).keepState n =
          if n ∈ slots then some .reserved else s.board.ts.keepState n) ∧
        files id keep (r.job s.board id
          (List.zipWith (fun k n => { sector := k, status := .pending, caps := [], best := none, slot := some n })
            (maskSectors r.target 16) slots) [])) ∧
    (r.kind = .relay →
      let sectors := List.range (s.board.drv r.drive).profile.sectors
      let sourced := sectors.all fun k => (s.board.ts.entry (r.track.addr k)).any fun e => !e.damaged
      ∃ id, s.board.givesId id ∧ 1 ≤ id ∧ id ≤ 255 ∧
        files id s.board.ts.keep
          { r.job s.board id [] (sectors.map fun k =>
              { sector := k, aside := none, image := none, written := false, verified := false }) with
            relayStep := if sourced then .write else .prepare })
end

