-- ==== Sys2Proof/Laws/State.lean ====
section
/-! SUPPORT. What each update of the board leaves unchanged, field by field. -/

namespace Sys2Proof.Machine

@[simp] theorem Quad.get_set_same {α : Type} (q : Quad α) (d : DriveNo) (x : α) : (q.set d x).get d = x := by
  fin_cases d <;> rfl

theorem Quad.get_set_other {α : Type} (q : Quad α) {d e : DriveNo} (x : α) (h : e ≠ d) :
    (q.set d x).get e = q.get e := by
  fin_cases d <;> fin_cases e <;> first | rfl | exact absurd rfl h

@[simp] theorem Quad.set_set {α : Type} (q : Quad α) (d : DriveNo) (x y : α) : (q.set d x).set d y = q.set d y := by
  fin_cases d <;> rfl

@[simp] theorem Quad.set_get {α : Type} (q : Quad α) (d : DriveNo) : q.set d (q.get d) = q := by
  fin_cases d <;> rfl

/-! ### modDrv -/

@[simp] theorem Board.modDrv_now (b : Board) (d : DriveNo) (f : Drive → Drive) : (b.modDrv d f).now = b.now := rfl
@[simp] theorem Board.modDrv_strap1 (b : Board) (d : DriveNo) (f : Drive → Drive) : (b.modDrv d f).strap1 = b.strap1 := rfl
@[simp] theorem Board.modDrv_strap2 (b : Board) (d : DriveNo) (f : Drive → Drive) : (b.modDrv d f).strap2 = b.strap2 := rfl
@[simp] theorem Board.modDrv_retention (b : Board) (d : DriveNo) (f : Drive → Drive) : (b.modDrv d f).retention = b.retention := rfl
@[simp] theorem Board.modDrv_re (b : Board) (d : DriveNo) (f : Drive → Drive) : (b.modDrv d f).re = b.re := rfl
@[simp] theorem Board.modDrv_su (b : Board) (d : DriveNo) (f : Drive → Drive) : (b.modDrv d f).su = b.su := rfl
@[simp] theorem Board.modDrv_ts (b : Board) (d : DriveNo) (f : Drive → Drive) : (b.modDrv d f).ts = b.ts := rfl
@[simp] theorem Board.modDrv_sk (b : Board) (d : DriveNo) (f : Drive → Drive) : (b.modDrv d f).sk = b.sk := rfl
@[simp] theorem Board.modDrv_filing (b : Board) (d : DriveNo) (f : Drive → Drive) : (b.modDrv d f).filing = b.filing := rfl
@[simp] theorem Board.modDrv_out (b : Board) (d : DriveNo) (f : Drive → Drive) : (b.modDrv d f).out = b.out := rfl
@[simp] theorem Board.modDrv_answer (b : Board) (d : DriveNo) (f : Drive → Drive) : (b.modDrv d f).answer = b.answer := rfl
@[simp] theorem Board.modDrv_exam (b : Board) (d : DriveNo) (f : Drive → Drive) : (b.modDrv d f).exam = b.exam := rfl
@[simp] theorem Board.modDrv_solveOver (b : Board) (d : DriveNo) (f : Drive → Drive) : (b.modDrv d f).solveOver = b.solveOver := rfl

/-! ### modLp -/

@[simp] theorem Board.modLp_now (b : Board) (d : DriveNo) (f : LivePath → LivePath) : (b.modLp d f).now = b.now := rfl
@[simp] theorem Board.modLp_strap1 (b : Board) (d : DriveNo) (f : LivePath → LivePath) : (b.modLp d f).strap1 = b.strap1 := rfl
@[simp] theorem Board.modLp_strap2 (b : Board) (d : DriveNo) (f : LivePath → LivePath) : (b.modLp d f).strap2 = b.strap2 := rfl
@[simp] theorem Board.modLp_retention (b : Board) (d : DriveNo) (f : LivePath → LivePath) : (b.modLp d f).retention = b.retention := rfl
@[simp] theorem Board.modLp_re (b : Board) (d : DriveNo) (f : LivePath → LivePath) : (b.modLp d f).re = b.re := rfl
@[simp] theorem Board.modLp_su (b : Board) (d : DriveNo) (f : LivePath → LivePath) : (b.modLp d f).su = b.su := rfl
@[simp] theorem Board.modLp_ts (b : Board) (d : DriveNo) (f : LivePath → LivePath) : (b.modLp d f).ts = b.ts := rfl
@[simp] theorem Board.modLp_sk (b : Board) (d : DriveNo) (f : LivePath → LivePath) : (b.modLp d f).sk = b.sk := rfl
@[simp] theorem Board.modLp_filing (b : Board) (d : DriveNo) (f : LivePath → LivePath) : (b.modLp d f).filing = b.filing := rfl
@[simp] theorem Board.modLp_out (b : Board) (d : DriveNo) (f : LivePath → LivePath) : (b.modLp d f).out = b.out := rfl
@[simp] theorem Board.modLp_answer (b : Board) (d : DriveNo) (f : LivePath → LivePath) : (b.modLp d f).answer = b.answer := rfl
@[simp] theorem Board.modLp_exam (b : Board) (d : DriveNo) (f : LivePath → LivePath) : (b.modLp d f).exam = b.exam := rfl
@[simp] theorem Board.modLp_solveOver (b : Board) (d : DriveNo) (f : LivePath → LivePath) : (b.modLp d f).solveOver = b.solveOver := rfl

/-! ### modDa -/

@[simp] theorem Board.modDa_now (b : Board) (d : DriveNo) (f : Arbiter → Arbiter) : (b.modDa d f).now = b.now := rfl
@[simp] theorem Board.modDa_strap1 (b : Board) (d : DriveNo) (f : Arbiter → Arbiter) : (b.modDa d f).strap1 = b.strap1 := rfl
@[simp] theorem Board.modDa_strap2 (b : Board) (d : DriveNo) (f : Arbiter → Arbiter) : (b.modDa d f).strap2 = b.strap2 := rfl
@[simp] theorem Board.modDa_retention (b : Board) (d : DriveNo) (f : Arbiter → Arbiter) : (b.modDa d f).retention = b.retention := rfl
@[simp] theorem Board.modDa_re (b : Board) (d : DriveNo) (f : Arbiter → Arbiter) : (b.modDa d f).re = b.re := rfl
@[simp] theorem Board.modDa_su (b : Board) (d : DriveNo) (f : Arbiter → Arbiter) : (b.modDa d f).su = b.su := rfl
@[simp] theorem Board.modDa_ts (b : Board) (d : DriveNo) (f : Arbiter → Arbiter) : (b.modDa d f).ts = b.ts := rfl
@[simp] theorem Board.modDa_sk (b : Board) (d : DriveNo) (f : Arbiter → Arbiter) : (b.modDa d f).sk = b.sk := rfl
@[simp] theorem Board.modDa_filing (b : Board) (d : DriveNo) (f : Arbiter → Arbiter) : (b.modDa d f).filing = b.filing := rfl
@[simp] theorem Board.modDa_out (b : Board) (d : DriveNo) (f : Arbiter → Arbiter) : (b.modDa d f).out = b.out := rfl
@[simp] theorem Board.modDa_answer (b : Board) (d : DriveNo) (f : Arbiter → Arbiter) : (b.modDa d f).answer = b.answer := rfl
@[simp] theorem Board.modDa_exam (b : Board) (d : DriveNo) (f : Arbiter → Arbiter) : (b.modDa d f).exam = b.exam := rfl
@[simp] theorem Board.modDa_solveOver (b : Board) (d : DriveNo) (f : Arbiter → Arbiter) : (b.modDa d f).solveOver = b.solveOver := rfl

/-! ### modRc -/

@[simp] theorem Board.modRc_now (b : Board) (d : DriveNo) (f : Channel → Channel) : (b.modRc d f).now = b.now := rfl
@[simp] theorem Board.modRc_strap1 (b : Board) (d : DriveNo) (f : Channel → Channel) : (b.modRc d f).strap1 = b.strap1 := rfl
@[simp] theorem Board.modRc_strap2 (b : Board) (d : DriveNo) (f : Channel → Channel) : (b.modRc d f).strap2 = b.strap2 := rfl
@[simp] theorem Board.modRc_retention (b : Board) (d : DriveNo) (f : Channel → Channel) : (b.modRc d f).retention = b.retention := rfl
@[simp] theorem Board.modRc_re (b : Board) (d : DriveNo) (f : Channel → Channel) : (b.modRc d f).re = b.re := rfl
@[simp] theorem Board.modRc_su (b : Board) (d : DriveNo) (f : Channel → Channel) : (b.modRc d f).su = b.su := rfl
@[simp] theorem Board.modRc_ts (b : Board) (d : DriveNo) (f : Channel → Channel) : (b.modRc d f).ts = b.ts := rfl
@[simp] theorem Board.modRc_sk (b : Board) (d : DriveNo) (f : Channel → Channel) : (b.modRc d f).sk = b.sk := rfl
@[simp] theorem Board.modRc_filing (b : Board) (d : DriveNo) (f : Channel → Channel) : (b.modRc d f).filing = b.filing := rfl
@[simp] theorem Board.modRc_out (b : Board) (d : DriveNo) (f : Channel → Channel) : (b.modRc d f).out = b.out := rfl
@[simp] theorem Board.modRc_answer (b : Board) (d : DriveNo) (f : Channel → Channel) : (b.modRc d f).answer = b.answer := rfl
@[simp] theorem Board.modRc_exam (b : Board) (d : DriveNo) (f : Channel → Channel) : (b.modRc d f).exam = b.exam := rfl
@[simp] theorem Board.modRc_solveOver (b : Board) (d : DriveNo) (f : Channel → Channel) : (b.modRc d f).solveOver = b.solveOver := rfl

/-! ### modRt -/

@[simp] theorem Board.modRt_now (b : Board) (d : DriveNo) (f : Tracker → Tracker) : (b.modRt d f).now = b.now := rfl
@[simp] theorem Board.modRt_strap1 (b : Board) (d : DriveNo) (f : Tracker → Tracker) : (b.modRt d f).strap1 = b.strap1 := rfl
@[simp] theorem Board.modRt_strap2 (b : Board) (d : DriveNo) (f : Tracker → Tracker) : (b.modRt d f).strap2 = b.strap2 := rfl
@[simp] theorem Board.modRt_retention (b : Board) (d : DriveNo) (f : Tracker → Tracker) : (b.modRt d f).retention = b.retention := rfl
@[simp] theorem Board.modRt_re (b : Board) (d : DriveNo) (f : Tracker → Tracker) : (b.modRt d f).re = b.re := rfl
@[simp] theorem Board.modRt_su (b : Board) (d : DriveNo) (f : Tracker → Tracker) : (b.modRt d f).su = b.su := rfl
@[simp] theorem Board.modRt_ts (b : Board) (d : DriveNo) (f : Tracker → Tracker) : (b.modRt d f).ts = b.ts := rfl
@[simp] theorem Board.modRt_sk (b : Board) (d : DriveNo) (f : Tracker → Tracker) : (b.modRt d f).sk = b.sk := rfl
@[simp] theorem Board.modRt_filing (b : Board) (d : DriveNo) (f : Tracker → Tracker) : (b.modRt d f).filing = b.filing := rfl
@[simp] theorem Board.modRt_out (b : Board) (d : DriveNo) (f : Tracker → Tracker) : (b.modRt d f).out = b.out := rfl
@[simp] theorem Board.modRt_answer (b : Board) (d : DriveNo) (f : Tracker → Tracker) : (b.modRt d f).answer = b.answer := rfl
@[simp] theorem Board.modRt_exam (b : Board) (d : DriveNo) (f : Tracker → Tracker) : (b.modRt d f).exam = b.exam := rfl
@[simp] theorem Board.modRt_solveOver (b : Board) (d : DriveNo) (f : Tracker → Tracker) : (b.modRt d f).solveOver = b.solveOver := rfl

/-! ### modPins -/

@[simp] theorem Board.modPins_now (b : Board) (d : DriveNo) (f : Pins → Pins) : (b.modPins d f).now = b.now := rfl
@[simp] theorem Board.modPins_strap1 (b : Board) (d : DriveNo) (f : Pins → Pins) : (b.modPins d f).strap1 = b.strap1 := rfl
@[simp] theorem Board.modPins_strap2 (b : Board) (d : DriveNo) (f : Pins → Pins) : (b.modPins d f).strap2 = b.strap2 := rfl
@[simp] theorem Board.modPins_retention (b : Board) (d : DriveNo) (f : Pins → Pins) : (b.modPins d f).retention = b.retention := rfl
@[simp] theorem Board.modPins_re (b : Board) (d : DriveNo) (f : Pins → Pins) : (b.modPins d f).re = b.re := rfl
@[simp] theorem Board.modPins_su (b : Board) (d : DriveNo) (f : Pins → Pins) : (b.modPins d f).su = b.su := rfl
@[simp] theorem Board.modPins_ts (b : Board) (d : DriveNo) (f : Pins → Pins) : (b.modPins d f).ts = b.ts := rfl
@[simp] theorem Board.modPins_sk (b : Board) (d : DriveNo) (f : Pins → Pins) : (b.modPins d f).sk = b.sk := rfl
@[simp] theorem Board.modPins_filing (b : Board) (d : DriveNo) (f : Pins → Pins) : (b.modPins d f).filing = b.filing := rfl
@[simp] theorem Board.modPins_out (b : Board) (d : DriveNo) (f : Pins → Pins) : (b.modPins d f).out = b.out := rfl
@[simp] theorem Board.modPins_answer (b : Board) (d : DriveNo) (f : Pins → Pins) : (b.modPins d f).answer = b.answer := rfl
@[simp] theorem Board.modPins_exam (b : Board) (d : DriveNo) (f : Pins → Pins) : (b.modPins d f).exam = b.exam := rfl
@[simp] theorem Board.modPins_solveOver (b : Board) (d : DriveNo) (f : Pins → Pins) : (b.modPins d f).solveOver = b.solveOver := rfl

/-! ### note -/

@[simp] theorem Board.note_now (b : Board) (d : Option DriveNo) (n : NoticeBody) : (b.note d n).now = b.now := rfl
@[simp] theorem Board.note_strap1 (b : Board) (d : Option DriveNo) (n : NoticeBody) : (b.note d n).strap1 = b.strap1 := rfl
@[simp] theorem Board.note_strap2 (b : Board) (d : Option DriveNo) (n : NoticeBody) : (b.note d n).strap2 = b.strap2 := rfl
@[simp] theorem Board.note_retention (b : Board) (d : Option DriveNo) (n : NoticeBody) : (b.note d n).retention = b.retention := rfl
@[simp] theorem Board.note_drives (b : Board) (d : Option DriveNo) (n : NoticeBody) : (b.note d n).drives = b.drives := rfl
@[simp] theorem Board.note_re (b : Board) (d : Option DriveNo) (n : NoticeBody) : (b.note d n).re = b.re := rfl
@[simp] theorem Board.note_su (b : Board) (d : Option DriveNo) (n : NoticeBody) : (b.note d n).su = b.su := rfl
@[simp] theorem Board.note_ts (b : Board) (d : Option DriveNo) (n : NoticeBody) : (b.note d n).ts = b.ts := rfl
@[simp] theorem Board.note_sk (b : Board) (d : Option DriveNo) (n : NoticeBody) : (b.note d n).sk = b.sk := rfl
@[simp] theorem Board.note_filing (b : Board) (d : Option DriveNo) (n : NoticeBody) : (b.note d n).filing = b.filing := rfl
@[simp] theorem Board.note_answer (b : Board) (d : Option DriveNo) (n : NoticeBody) : (b.note d n).answer = b.answer := rfl
@[simp] theorem Board.note_exam (b : Board) (d : Option DriveNo) (n : NoticeBody) : (b.note d n).exam = b.exam := rfl
@[simp] theorem Board.note_solveOver (b : Board) (d : Option DriveNo) (n : NoticeBody) : (b.note d n).solveOver = b.solveOver := rfl
@[simp] theorem Board.note_drv (b : Board) (d : Option DriveNo) (n : NoticeBody) (e : DriveNo) : (b.note d n).drv e = b.drv e := rfl

/-! ### reply -/

@[simp] theorem Board.reply_now (b : Board) (st : Status) (a : Bool) (l : List Byte) : (b.reply st a l).now = b.now := rfl
@[simp] theorem Board.reply_strap1 (b : Board) (st : Status) (a : Bool) (l : List Byte) : (b.reply st a l).strap1 = b.strap1 := rfl
@[simp] theorem Board.reply_strap2 (b : Board) (st : Status) (a : Bool) (l : List Byte) : (b.reply st a l).strap2 = b.strap2 := rfl
@[simp] theorem Board.reply_retention (b : Board) (st : Status) (a : Bool) (l : List Byte) : (b.reply st a l).retention = b.retention := rfl
@[simp] theorem Board.reply_drives (b : Board) (st : Status) (a : Bool) (l : List Byte) : (b.reply st a l).drives = b.drives := rfl
@[simp] theorem Board.reply_re (b : Board) (st : Status) (a : Bool) (l : List Byte) : (b.reply st a l).re = b.re := rfl
@[simp] theorem Board.reply_su (b : Board) (st : Status) (a : Bool) (l : List Byte) : (b.reply st a l).su = b.su := rfl
@[simp] theorem Board.reply_ts (b : Board) (st : Status) (a : Bool) (l : List Byte) : (b.reply st a l).ts = b.ts := rfl
@[simp] theorem Board.reply_sk (b : Board) (st : Status) (a : Bool) (l : List Byte) : (b.reply st a l).sk = b.sk := rfl
@[simp] theorem Board.reply_filing (b : Board) (st : Status) (a : Bool) (l : List Byte) : (b.reply st a l).filing = b.filing := rfl
@[simp] theorem Board.reply_out (b : Board) (st : Status) (a : Bool) (l : List Byte) : (b.reply st a l).out = b.out := rfl
@[simp] theorem Board.reply_exam (b : Board) (st : Status) (a : Bool) (l : List Byte) : (b.reply st a l).exam = b.exam := rfl
@[simp] theorem Board.reply_solveOver (b : Board) (st : Status) (a : Bool) (l : List Byte) : (b.reply st a l).solveOver = b.solveOver := rfl
@[simp] theorem Board.reply_drv (b : Board) (st : Status) (a : Bool) (l : List Byte) (e : DriveNo) : (b.reply st a l).drv e = b.drv e := rfl

/-! ### deny -/

@[simp] theorem Board.deny_now (b : Board) (st : Status) : (b.deny st).now = b.now := rfl
@[simp] theorem Board.deny_strap1 (b : Board) (st : Status) : (b.deny st).strap1 = b.strap1 := rfl
@[simp] theorem Board.deny_strap2 (b : Board) (st : Status) : (b.deny st).strap2 = b.strap2 := rfl
@[simp] theorem Board.deny_retention (b : Board) (st : Status) : (b.deny st).retention = b.retention := rfl
@[simp] theorem Board.deny_drives (b : Board) (st : Status) : (b.deny st).drives = b.drives := rfl
@[simp] theorem Board.deny_re (b : Board) (st : Status) : (b.deny st).re = b.re := rfl
@[simp] theorem Board.deny_su (b : Board) (st : Status) : (b.deny st).su = b.su := rfl
@[simp] theorem Board.deny_ts (b : Board) (st : Status) : (b.deny st).ts = b.ts := rfl
@[simp] theorem Board.deny_sk (b : Board) (st : Status) : (b.deny st).sk = b.sk := rfl
@[simp] theorem Board.deny_filing (b : Board) (st : Status) : (b.deny st).filing = b.filing := rfl
@[simp] theorem Board.deny_out (b : Board) (st : Status) : (b.deny st).out = b.out := rfl
@[simp] theorem Board.deny_exam (b : Board) (st : Status) : (b.deny st).exam = b.exam := rfl
@[simp] theorem Board.deny_solveOver (b : Board) (st : Status) : (b.deny st).solveOver = b.solveOver := rfl
@[simp] theorem Board.deny_drv (b : Board) (st : Status) (e : DriveNo) : (b.deny st).drv e = b.drv e := rfl

/-! ### modJob -/

@[simp] theorem Board.modJob_now (b : Board) (i : Nat) (f : Job → Job) : (b.modJob i f).now = b.now := rfl
@[simp] theorem Board.modJob_strap1 (b : Board) (i : Nat) (f : Job → Job) : (b.modJob i f).strap1 = b.strap1 := rfl
@[simp] theorem Board.modJob_strap2 (b : Board) (i : Nat) (f : Job → Job) : (b.modJob i f).strap2 = b.strap2 := rfl
@[simp] theorem Board.modJob_retention (b : Board) (i : Nat) (f : Job → Job) : (b.modJob i f).retention = b.retention := rfl
@[simp] theorem Board.modJob_drives (b : Board) (i : Nat) (f : Job → Job) : (b.modJob i f).drives = b.drives := rfl
@[simp] theorem Board.modJob_su (b : Board) (i : Nat) (f : Job → Job) : (b.modJob i f).su = b.su := rfl
@[simp] theorem Board.modJob_ts (b : Board) (i : Nat) (f : Job → Job) : (b.modJob i f).ts = b.ts := rfl
@[simp] theorem Board.modJob_sk (b : Board) (i : Nat) (f : Job → Job) : (b.modJob i f).sk = b.sk := rfl
@[simp] theorem Board.modJob_filing (b : Board) (i : Nat) (f : Job → Job) : (b.modJob i f).filing = b.filing := rfl
@[simp] theorem Board.modJob_out (b : Board) (i : Nat) (f : Job → Job) : (b.modJob i f).out = b.out := rfl
@[simp] theorem Board.modJob_answer (b : Board) (i : Nat) (f : Job → Job) : (b.modJob i f).answer = b.answer := rfl
@[simp] theorem Board.modJob_exam (b : Board) (i : Nat) (f : Job → Job) : (b.modJob i f).exam = b.exam := rfl
@[simp] theorem Board.modJob_solveOver (b : Board) (i : Nat) (f : Job → Job) : (b.modJob i f).solveOver = b.solveOver := rfl
@[simp] theorem Board.modJob_drv (b : Board) (i : Nat) (f : Job → Job) (e : DriveNo) : (b.modJob i f).drv e = b.drv e := rfl

/-! ### setKeep -/

@[simp] theorem Board.setKeep_now (b : Board) (i : Nat) (k : KeepState) : (b.setKeep i k).now = b.now := rfl
@[simp] theorem Board.setKeep_strap1 (b : Board) (i : Nat) (k : KeepState) : (b.setKeep i k).strap1 = b.strap1 := rfl
@[simp] theorem Board.setKeep_strap2 (b : Board) (i : Nat) (k : KeepState) : (b.setKeep i k).strap2 = b.strap2 := rfl
@[simp] theorem Board.setKeep_retention (b : Board) (i : Nat) (k : KeepState) : (b.setKeep i k).retention = b.retention := rfl
@[simp] theorem Board.setKeep_drives (b : Board) (i : Nat) (k : KeepState) : (b.setKeep i k).drives = b.drives := rfl
@[simp] theorem Board.setKeep_re (b : Board) (i : Nat) (k : KeepState) : (b.setKeep i k).re = b.re := rfl
@[simp] theorem Board.setKeep_su (b : Board) (i : Nat) (k : KeepState) : (b.setKeep i k).su = b.su := rfl
@[simp] theorem Board.setKeep_sk (b : Board) (i : Nat) (k : KeepState) : (b.setKeep i k).sk = b.sk := rfl
@[simp] theorem Board.setKeep_filing (b : Board) (i : Nat) (k : KeepState) : (b.setKeep i k).filing = b.filing := rfl
@[simp] theorem Board.setKeep_out (b : Board) (i : Nat) (k : KeepState) : (b.setKeep i k).out = b.out := rfl
@[simp] theorem Board.setKeep_answer (b : Board) (i : Nat) (k : KeepState) : (b.setKeep i k).answer = b.answer := rfl
@[simp] theorem Board.setKeep_exam (b : Board) (i : Nat) (k : KeepState) : (b.setKeep i k).exam = b.exam := rfl
@[simp] theorem Board.setKeep_solveOver (b : Board) (i : Nat) (k : KeepState) : (b.setKeep i k).solveOver = b.solveOver := rfl
@[simp] theorem Board.setKeep_drv (b : Board) (i : Nat) (k : KeepState) (e : DriveNo) : (b.setKeep i k).drv e = b.drv e := rfl

/-! ### eraseKeep -/

@[simp] theorem Board.eraseKeep_now (b : Board) (i : Nat) : (b.eraseKeep i).now = b.now := rfl
@[simp] theorem Board.eraseKeep_strap1 (b : Board) (i : Nat) : (b.eraseKeep i).strap1 = b.strap1 := rfl
@[simp] theorem Board.eraseKeep_strap2 (b : Board) (i : Nat) : (b.eraseKeep i).strap2 = b.strap2 := rfl
@[simp] theorem Board.eraseKeep_retention (b : Board) (i : Nat) : (b.eraseKeep i).retention = b.retention := rfl
@[simp] theorem Board.eraseKeep_drives (b : Board) (i : Nat) : (b.eraseKeep i).drives = b.drives := rfl
@[simp] theorem Board.eraseKeep_re (b : Board) (i : Nat) : (b.eraseKeep i).re = b.re := rfl
@[simp] theorem Board.eraseKeep_su (b : Board) (i : Nat) : (b.eraseKeep i).su = b.su := rfl
@[simp] theorem Board.eraseKeep_sk (b : Board) (i : Nat) : (b.eraseKeep i).sk = b.sk := rfl
@[simp] theorem Board.eraseKeep_filing (b : Board) (i : Nat) : (b.eraseKeep i).filing = b.filing := rfl
@[simp] theorem Board.eraseKeep_out (b : Board) (i : Nat) : (b.eraseKeep i).out = b.out := rfl
@[simp] theorem Board.eraseKeep_answer (b : Board) (i : Nat) : (b.eraseKeep i).answer = b.answer := rfl
@[simp] theorem Board.eraseKeep_solveOver (b : Board) (i : Nat) : (b.eraseKeep i).solveOver = b.solveOver := rfl
@[simp] theorem Board.eraseKeep_drv (b : Board) (i : Nat) (e : DriveNo) : (b.eraseKeep i).drv e = b.drv e := rfl

/-! ### usePool -/

@[simp] theorem Board.usePool_now (b : Board) (i : Nat) : (b.usePool i).now = b.now := rfl
@[simp] theorem Board.usePool_strap1 (b : Board) (i : Nat) : (b.usePool i).strap1 = b.strap1 := rfl
@[simp] theorem Board.usePool_strap2 (b : Board) (i : Nat) : (b.usePool i).strap2 = b.strap2 := rfl
@[simp] theorem Board.usePool_retention (b : Board) (i : Nat) : (b.usePool i).retention = b.retention := rfl
@[simp] theorem Board.usePool_drives (b : Board) (i : Nat) : (b.usePool i).drives = b.drives := rfl
@[simp] theorem Board.usePool_re (b : Board) (i : Nat) : (b.usePool i).re = b.re := rfl
@[simp] theorem Board.usePool_su (b : Board) (i : Nat) : (b.usePool i).su = b.su := rfl
@[simp] theorem Board.usePool_sk (b : Board) (i : Nat) : (b.usePool i).sk = b.sk := rfl
@[simp] theorem Board.usePool_filing (b : Board) (i : Nat) : (b.usePool i).filing = b.filing := rfl
@[simp] theorem Board.usePool_out (b : Board) (i : Nat) : (b.usePool i).out = b.out := rfl
@[simp] theorem Board.usePool_answer (b : Board) (i : Nat) : (b.usePool i).answer = b.answer := rfl
@[simp] theorem Board.usePool_exam (b : Board) (i : Nat) : (b.usePool i).exam = b.exam := rfl
@[simp] theorem Board.usePool_solveOver (b : Board) (i : Nat) : (b.usePool i).solveOver = b.solveOver := rfl
@[simp] theorem Board.usePool_drv (b : Board) (i : Nat) (e : DriveNo) : (b.usePool i).drv e = b.drv e := rfl

/-! ### freePool -/

@[simp] theorem Board.freePool_now (b : Board) (i : Nat) : (b.freePool i).now = b.now := rfl
@[simp] theorem Board.freePool_strap1 (b : Board) (i : Nat) : (b.freePool i).strap1 = b.strap1 := rfl
@[simp] theorem Board.freePool_strap2 (b : Board) (i : Nat) : (b.freePool i).strap2 = b.strap2 := rfl
@[simp] theorem Board.freePool_retention (b : Board) (i : Nat) : (b.freePool i).retention = b.retention := rfl
@[simp] theorem Board.freePool_drives (b : Board) (i : Nat) : (b.freePool i).drives = b.drives := rfl
@[simp] theorem Board.freePool_re (b : Board) (i : Nat) : (b.freePool i).re = b.re := rfl
@[simp] theorem Board.freePool_su (b : Board) (i : Nat) : (b.freePool i).su = b.su := rfl
@[simp] theorem Board.freePool_sk (b : Board) (i : Nat) : (b.freePool i).sk = b.sk := rfl
@[simp] theorem Board.freePool_filing (b : Board) (i : Nat) : (b.freePool i).filing = b.filing := rfl
@[simp] theorem Board.freePool_out (b : Board) (i : Nat) : (b.freePool i).out = b.out := rfl
@[simp] theorem Board.freePool_answer (b : Board) (i : Nat) : (b.freePool i).answer = b.answer := rfl
@[simp] theorem Board.freePool_exam (b : Board) (i : Nat) : (b.freePool i).exam = b.exam := rfl
@[simp] theorem Board.freePool_solveOver (b : Board) (i : Nat) : (b.freePool i).solveOver = b.solveOver := rfl
@[simp] theorem Board.freePool_drv (b : Board) (i : Nat) (e : DriveNo) : (b.freePool i).drv e = b.drv e := rfl

/-! ### request -/

@[simp] theorem Board.request_now (b : Board) (k : OpKind) (i : Nat) (l : List Access) : (b.request k i l).now = b.now := rfl
@[simp] theorem Board.request_strap1 (b : Board) (k : OpKind) (i : Nat) (l : List Access) : (b.request k i l).strap1 = b.strap1 := rfl
@[simp] theorem Board.request_strap2 (b : Board) (k : OpKind) (i : Nat) (l : List Access) : (b.request k i l).strap2 = b.strap2 := rfl
@[simp] theorem Board.request_retention (b : Board) (k : OpKind) (i : Nat) (l : List Access) : (b.request k i l).retention = b.retention := rfl
@[simp] theorem Board.request_drives (b : Board) (k : OpKind) (i : Nat) (l : List Access) : (b.request k i l).drives = b.drives := rfl
@[simp] theorem Board.request_re (b : Board) (k : OpKind) (i : Nat) (l : List Access) : (b.request k i l).re = b.re := rfl
@[simp] theorem Board.request_su (b : Board) (k : OpKind) (i : Nat) (l : List Access) : (b.request k i l).su = b.su := rfl
@[simp] theorem Board.request_sk (b : Board) (k : OpKind) (i : Nat) (l : List Access) : (b.request k i l).sk = b.sk := rfl
@[simp] theorem Board.request_filing (b : Board) (k : OpKind) (i : Nat) (l : List Access) : (b.request k i l).filing = b.filing := rfl
@[simp] theorem Board.request_out (b : Board) (k : OpKind) (i : Nat) (l : List Access) : (b.request k i l).out = b.out := rfl
@[simp] theorem Board.request_answer (b : Board) (k : OpKind) (i : Nat) (l : List Access) : (b.request k i l).answer = b.answer := rfl
@[simp] theorem Board.request_exam (b : Board) (k : OpKind) (i : Nat) (l : List Access) : (b.request k i l).exam = b.exam := rfl
@[simp] theorem Board.request_solveOver (b : Board) (k : OpKind) (i : Nat) (l : List Access) : (b.request k i l).solveOver = b.solveOver := rfl
@[simp] theorem Board.request_drv (b : Board) (k : OpKind) (i : Nat) (l : List Access) (e : DriveNo) : (b.request k i l).drv e = b.drv e := rfl

/-! ### dropOps -/

@[simp] theorem Board.dropOps_now (b : Board) (p : StoreOp → Bool) : (b.dropOps p).now = b.now := rfl
@[simp] theorem Board.dropOps_strap1 (b : Board) (p : StoreOp → Bool) : (b.dropOps p).strap1 = b.strap1 := rfl
@[simp] theorem Board.dropOps_strap2 (b : Board) (p : StoreOp → Bool) : (b.dropOps p).strap2 = b.strap2 := rfl
@[simp] theorem Board.dropOps_retention (b : Board) (p : StoreOp → Bool) : (b.dropOps p).retention = b.retention := rfl
@[simp] theorem Board.dropOps_drives (b : Board) (p : StoreOp → Bool) : (b.dropOps p).drives = b.drives := rfl
@[simp] theorem Board.dropOps_re (b : Board) (p : StoreOp → Bool) : (b.dropOps p).re = b.re := rfl
@[simp] theorem Board.dropOps_su (b : Board) (p : StoreOp → Bool) : (b.dropOps p).su = b.su := rfl
@[simp] theorem Board.dropOps_sk (b : Board) (p : StoreOp → Bool) : (b.dropOps p).sk = b.sk := rfl
@[simp] theorem Board.dropOps_filing (b : Board) (p : StoreOp → Bool) : (b.dropOps p).filing = b.filing := rfl
@[simp] theorem Board.dropOps_out (b : Board) (p : StoreOp → Bool) : (b.dropOps p).out = b.out := rfl
@[simp] theorem Board.dropOps_answer (b : Board) (p : StoreOp → Bool) : (b.dropOps p).answer = b.answer := rfl
@[simp] theorem Board.dropOps_solveOver (b : Board) (p : StoreOp → Bool) : (b.dropOps p).solveOver = b.solveOver := rfl
@[simp] theorem Board.dropOps_drv (b : Board) (p : StoreOp → Bool) (e : DriveNo) : (b.dropOps p).drv e = b.drv e := rfl

/-! ### modEntry -/

@[simp] theorem Board.modEntry_now (b : Board) (a : Addr) (f : KeepEntry → KeepEntry) : (b.modEntry a f).now = b.now := rfl
@[simp] theorem Board.modEntry_strap1 (b : Board) (a : Addr) (f : KeepEntry → KeepEntry) : (b.modEntry a f).strap1 = b.strap1 := rfl
@[simp] theorem Board.modEntry_strap2 (b : Board) (a : Addr) (f : KeepEntry → KeepEntry) : (b.modEntry a f).strap2 = b.strap2 := rfl
@[simp] theorem Board.modEntry_retention (b : Board) (a : Addr) (f : KeepEntry → KeepEntry) : (b.modEntry a f).retention = b.retention := rfl
@[simp] theorem Board.modEntry_drives (b : Board) (a : Addr) (f : KeepEntry → KeepEntry) : (b.modEntry a f).drives = b.drives := rfl
@[simp] theorem Board.modEntry_re (b : Board) (a : Addr) (f : KeepEntry → KeepEntry) : (b.modEntry a f).re = b.re := rfl
@[simp] theorem Board.modEntry_su (b : Board) (a : Addr) (f : KeepEntry → KeepEntry) : (b.modEntry a f).su = b.su := rfl
@[simp] theorem Board.modEntry_sk (b : Board) (a : Addr) (f : KeepEntry → KeepEntry) : (b.modEntry a f).sk = b.sk := rfl
@[simp] theorem Board.modEntry_filing (b : Board) (a : Addr) (f : KeepEntry → KeepEntry) : (b.modEntry a f).filing = b.filing := rfl
@[simp] theorem Board.modEntry_out (b : Board) (a : Addr) (f : KeepEntry → KeepEntry) : (b.modEntry a f).out = b.out := rfl
@[simp] theorem Board.modEntry_answer (b : Board) (a : Addr) (f : KeepEntry → KeepEntry) : (b.modEntry a f).answer = b.answer := rfl
@[simp] theorem Board.modEntry_exam (b : Board) (a : Addr) (f : KeepEntry → KeepEntry) : (b.modEntry a f).exam = b.exam := rfl
@[simp] theorem Board.modEntry_solveOver (b : Board) (a : Addr) (f : KeepEntry → KeepEntry) : (b.modEntry a f).solveOver = b.solveOver := rfl
@[simp] theorem Board.modEntry_drv (b : Board) (a : Addr) (f : KeepEntry → KeepEntry) (e : DriveNo) : (b.modEntry a f).drv e = b.drv e := rfl

/-! ### Drive records -/

@[simp] theorem Board.modDrv_same (b : Board) (d : DriveNo) (f : Drive → Drive) :
    (b.modDrv d f).drv d = f (b.drv d) := by
  simp [Board.modDrv, Board.drv]

theorem Board.modDrv_other (b : Board) {d e : DriveNo} (f : Drive → Drive) (h : e ≠ d) :
    (b.modDrv d f).drv e = b.drv e := by
  simp [Board.modDrv, Board.drv, Quad.get_set_other _ _ h]

@[simp] theorem Board.modLp_same (b : Board) (d : DriveNo) (f : LivePath → LivePath) :
    (b.modLp d f).drv d = { b.drv d with lp := f (b.drv d).lp } := by
  simp [Board.modLp]

theorem Board.modLp_other (b : Board) {d e : DriveNo} (f : LivePath → LivePath) (h : e ≠ d) :
    (b.modLp d f).drv e = b.drv e := b.modDrv_other _ h

@[simp] theorem Board.modLp_profile (b : Board) (d e : DriveNo) (f : LivePath → LivePath) :
    ((b.modLp d f).drv e).profile = (b.drv e).profile := by
  by_cases h : e = d
  · subst h; simp
  · rw [b.modLp_other f h]

@[simp] theorem Board.modLp_pins (b : Board) (d e : DriveNo) (f : LivePath → LivePath) :
    ((b.modLp d f).drv e).pins = (b.drv e).pins := by
  by_cases h : e = d
  · subst h; simp
  · rw [b.modLp_other f h]

@[simp] theorem Board.modLp_rt (b : Board) (d e : DriveNo) (f : LivePath → LivePath) :
    ((b.modLp d f).drv e).rt = (b.drv e).rt := by
  by_cases h : e = d
  · subst h; simp
  · rw [b.modLp_other f h]

@[simp] theorem Board.modLp_rc (b : Board) (d e : DriveNo) (f : LivePath → LivePath) :
    ((b.modLp d f).drv e).rc = (b.drv e).rc := by
  by_cases h : e = d
  · subst h; simp
  · rw [b.modLp_other f h]

@[simp] theorem Board.modLp_da (b : Board) (d e : DriveNo) (f : LivePath → LivePath) :
    ((b.modLp d f).drv e).da = (b.drv e).da := by
  by_cases h : e = d
  · subst h; simp
  · rw [b.modLp_other f h]

@[simp] theorem Board.modDa_same (b : Board) (d : DriveNo) (f : Arbiter → Arbiter) :
    (b.modDa d f).drv d = { b.drv d with da := f (b.drv d).da } := by
  simp [Board.modDa]

theorem Board.modDa_other (b : Board) {d e : DriveNo} (f : Arbiter → Arbiter) (h : e ≠ d) :
    (b.modDa d f).drv e = b.drv e := b.modDrv_other _ h

@[simp] theorem Board.modDa_profile (b : Board) (d e : DriveNo) (f : Arbiter → Arbiter) :
    ((b.modDa d f).drv e).profile = (b.drv e).profile := by
  by_cases h : e = d
  · subst h; simp
  · rw [b.modDa_other f h]

@[simp] theorem Board.modDa_pins (b : Board) (d e : DriveNo) (f : Arbiter → Arbiter) :
    ((b.modDa d f).drv e).pins = (b.drv e).pins := by
  by_cases h : e = d
  · subst h; simp
  · rw [b.modDa_other f h]

@[simp] theorem Board.modDa_rt (b : Board) (d e : DriveNo) (f : Arbiter → Arbiter) :
    ((b.modDa d f).drv e).rt = (b.drv e).rt := by
  by_cases h : e = d
  · subst h; simp
  · rw [b.modDa_other f h]

@[simp] theorem Board.modDa_rc (b : Board) (d e : DriveNo) (f : Arbiter → Arbiter) :
    ((b.modDa d f).drv e).rc = (b.drv e).rc := by
  by_cases h : e = d
  · subst h; simp
  · rw [b.modDa_other f h]

@[simp] theorem Board.modDa_lp (b : Board) (d e : DriveNo) (f : Arbiter → Arbiter) :
    ((b.modDa d f).drv e).lp = (b.drv e).lp := by
  by_cases h : e = d
  · subst h; simp
  · rw [b.modDa_other f h]

@[simp] theorem Board.modRc_same (b : Board) (d : DriveNo) (f : Channel → Channel) :
    (b.modRc d f).drv d = { b.drv d with rc := f (b.drv d).rc } := by
  simp [Board.modRc]

theorem Board.modRc_other (b : Board) {d e : DriveNo} (f : Channel → Channel) (h : e ≠ d) :
    (b.modRc d f).drv e = b.drv e := b.modDrv_other _ h

@[simp] theorem Board.modRc_profile (b : Board) (d e : DriveNo) (f : Channel → Channel) :
    ((b.modRc d f).drv e).profile = (b.drv e).profile := by
  by_cases h : e = d
  · subst h; simp
  · rw [b.modRc_other f h]

@[simp] theorem Board.modRc_pins (b : Board) (d e : DriveNo) (f : Channel → Channel) :
    ((b.modRc d f).drv e).pins = (b.drv e).pins := by
  by_cases h : e = d
  · subst h; simp
  · rw [b.modRc_other f h]

@[simp] theorem Board.modRc_rt (b : Board) (d e : DriveNo) (f : Channel → Channel) :
    ((b.modRc d f).drv e).rt = (b.drv e).rt := by
  by_cases h : e = d
  · subst h; simp
  · rw [b.modRc_other f h]

@[simp] theorem Board.modRc_lp (b : Board) (d e : DriveNo) (f : Channel → Channel) :
    ((b.modRc d f).drv e).lp = (b.drv e).lp := by
  by_cases h : e = d
  · subst h; simp
  · rw [b.modRc_other f h]

@[simp] theorem Board.modRc_da (b : Board) (d e : DriveNo) (f : Channel → Channel) :
    ((b.modRc d f).drv e).da = (b.drv e).da := by
  by_cases h : e = d
  · subst h; simp
  · rw [b.modRc_other f h]

@[simp] theorem Board.modRt_same (b : Board) (d : DriveNo) (f : Tracker → Tracker) :
    (b.modRt d f).drv d = { b.drv d with rt := f (b.drv d).rt } := by
  simp [Board.modRt]

theorem Board.modRt_other (b : Board) {d e : DriveNo} (f : Tracker → Tracker) (h : e ≠ d) :
    (b.modRt d f).drv e = b.drv e := b.modDrv_other _ h

@[simp] theorem Board.modRt_profile (b : Board) (d e : DriveNo) (f : Tracker → Tracker) :
    ((b.modRt d f).drv e).profile = (b.drv e).profile := by
  by_cases h : e = d
  · subst h; simp
  · rw [b.modRt_other f h]

@[simp] theorem Board.modRt_pins (b : Board) (d e : DriveNo) (f : Tracker → Tracker) :
    ((b.modRt d f).drv e).pins = (b.drv e).pins := by
  by_cases h : e = d
  · subst h; simp
  · rw [b.modRt_other f h]

@[simp] theorem Board.modRt_rc (b : Board) (d e : DriveNo) (f : Tracker → Tracker) :
    ((b.modRt d f).drv e).rc = (b.drv e).rc := by
  by_cases h : e = d
  · subst h; simp
  · rw [b.modRt_other f h]

@[simp] theorem Board.modRt_lp (b : Board) (d e : DriveNo) (f : Tracker → Tracker) :
    ((b.modRt d f).drv e).lp = (b.drv e).lp := by
  by_cases h : e = d
  · subst h; simp
  · rw [b.modRt_other f h]

@[simp] theorem Board.modRt_da (b : Board) (d e : DriveNo) (f : Tracker → Tracker) :
    ((b.modRt d f).drv e).da = (b.drv e).da := by
  by_cases h : e = d
  · subst h; simp
  · rw [b.modRt_other f h]

@[simp] theorem Board.modPins_same (b : Board) (d : DriveNo) (f : Pins → Pins) :
    (b.modPins d f).drv d = { b.drv d with pins := f (b.drv d).pins } := by
  simp [Board.modPins]

theorem Board.modPins_other (b : Board) {d e : DriveNo} (f : Pins → Pins) (h : e ≠ d) :
    (b.modPins d f).drv e = b.drv e := b.modDrv_other _ h

@[simp] theorem Board.modPins_profile (b : Board) (d e : DriveNo) (f : Pins → Pins) :
    ((b.modPins d f).drv e).profile = (b.drv e).profile := by
  by_cases h : e = d
  · subst h; simp
  · rw [b.modPins_other f h]

@[simp] theorem Board.modPins_rt (b : Board) (d e : DriveNo) (f : Pins → Pins) :
    ((b.modPins d f).drv e).rt = (b.drv e).rt := by
  by_cases h : e = d
  · subst h; simp
  · rw [b.modPins_other f h]

@[simp] theorem Board.modPins_rc (b : Board) (d e : DriveNo) (f : Pins → Pins) :
    ((b.modPins d f).drv e).rc = (b.drv e).rc := by
  by_cases h : e = d
  · subst h; simp
  · rw [b.modPins_other f h]

@[simp] theorem Board.modPins_lp (b : Board) (d e : DriveNo) (f : Pins → Pins) :
    ((b.modPins d f).drv e).lp = (b.drv e).lp := by
  by_cases h : e = d
  · subst h; simp
  · rw [b.modPins_other f h]

@[simp] theorem Board.modPins_da (b : Board) (d e : DriveNo) (f : Pins → Pins) :
    ((b.modPins d f).drv e).da = (b.drv e).da := by
  by_cases h : e = d
  · subst h; simp
  · rw [b.modPins_other f h]

end Sys2Proof.Machine
end

