-- ==== Sys2Proof/Laws/Examine.lean ====
section
/-! SUPPORT. What an examination of the suspect list, or a finish, leaves of the board and of every drive. -/

namespace Sys2Proof.Machine

/-- What a finish or an examination leaves of a drive: all of it but the emit buffer and whether it has changed, the
filing that waits for the gate, the stops asked of the engine and, of a READ that waits on the buffer, its course with the
channel's set-up (R25, R82, R91). -/
def Drive.kept (x y : Drive) : Prop :=
  (∃ course shift setup buf changed wait boundary abandon,
    y = { x with
      rc := { x.rc with shift := shift, setup := setup },
      lp := { x.lp with cmd := { x.lp.cmd with course := course }, buf := buf, bufChanged := changed,
                        autoWait := wait },
      da := { x.da with atBoundary := boundary, abandon := abandon } }) ∧
  (x.lp.waitsOnBuffer = false →
    y.rc = x.rc ∧ y.lp.cmd = x.lp.cmd ∧ (y.lp.buf = x.lp.buf ∨ y.lp.buf.state = .invalid))

/-- What a finish or an examination leaves of the board. -/
def Board.kept (b c : Board) : Prop :=
  (c.now = b.now ∧ c.filing = b.filing ∧ c.answer = b.answer ∧ c.sk = b.sk) ∧ ∀ d, (b.drv d).kept (c.drv d)

theorem Drive.kept_refl (x : Drive) : x.kept x :=
  ⟨⟨_, _, _, _, _, _, _, _, rfl⟩, fun _ => ⟨rfl, rfl, .inl rfl⟩⟩

theorem Board.kept_refl (b : Board) : b.kept b := ⟨⟨rfl, rfl, rfl, rfl⟩, fun d => (b.drv d).kept_refl⟩

variable {b c c' : Board}

/-- A change that no drive and none of the kept fields is part of. -/
theorem Board.kept_congr (h : b.kept c) (hd : c'.drives = c.drives)
    (hf : c'.now = c.now ∧ c'.filing = c.filing ∧ c'.answer = c.answer ∧ c'.sk = c.sk) : b.kept c' := by
  obtain ⟨⟨h1, h2, h3, h4⟩, h5⟩ := h
  refine ⟨⟨hf.1.trans h1, hf.2.1.trans h2, hf.2.2.1.trans h3, hf.2.2.2.trans h4⟩, fun d => ?_⟩
  unfold Board.drv
  rw [hd]
  exact h5 d

/-- A change of one drive that keeps it. -/
theorem Board.modDrv_kept (h : b.kept c) (d : DriveNo) {f : Drive → Drive}
    (hf : (b.drv d).kept (c.drv d) → (b.drv d).kept (f (c.drv d))) : b.kept (c.modDrv d f) := by
  refine ⟨h.1, fun e => ?_⟩
  by_cases he : e = d
  · subst he
    simpa [Board.drv, Board.modDrv] using hf (h.2 e)
  · simpa [Board.drv, Board.modDrv, Quad.get_set_other _ _ he] using h.2 e

theorem Board.foldl_kept {α : Type} {f : Board → α → Board} (hf : ∀ c x, b.kept c → b.kept (f c x)) (l : List α)
    (h : b.kept c) : b.kept (l.foldl f c) := by
  induction l generalizing c with
  | nil => exact h
  | cons x l ih => exact ih (hf c x h)

theorem Board.note_kept (h : b.kept c) (d : Option DriveNo) (n : NoticeBody) : b.kept (c.note d n) :=
  Board.kept_congr h rfl ⟨rfl, rfl, rfl, rfl⟩

theorem Board.modJob_kept (h : b.kept c) (n : Nat) (f : Job → Job) : b.kept (c.modJob n f) :=
  Board.kept_congr h rfl ⟨rfl, rfl, rfl, rfl⟩

theorem Board.setKeep_kept (h : b.kept c) (n : Nat) (k : KeepState) : b.kept (c.setKeep n k) :=
  Board.kept_congr h rfl ⟨rfl, rfl, rfl, rfl⟩

theorem Board.request_kept (h : b.kept c) (k : OpKind) (n : Nat) (l : List Access) : b.kept (c.request k n l) :=
  Board.kept_congr h rfl ⟨rfl, rfl, rfl, rfl⟩

theorem Board.dropOps_kept (h : b.kept c) (p : StoreOp → Bool) : b.kept (c.dropOps p) :=
  Board.kept_congr h rfl ⟨rfl, rfl, rfl, rfl⟩

theorem Board.letGo_kept (h : b.kept c) (n : Nat) : b.kept (c.letGo n) := by
  unfold Board.letGo
  repeat' split
  all_goals exact Board.kept_congr h rfl ⟨rfl, rfl, rfl, rfl⟩

theorem Board.setAside_kept (h : b.kept c) (n k : Nat) : b.kept (c.setAside n k).1 := by
  unfold Board.setAside
  repeat' split
  all_goals exact Board.kept_congr h rfl ⟨rfl, rfl, rfl, rfl⟩

/-! ### The entries and the emit buffers (R25, R134) -/

theorem Board.voidBuffer_kept (h : b.kept c) (d : DriveNo) : b.kept (c.voidBuffer d) := by
  refine Board.modDrv_kept (Board.dropOps_kept h _) d fun hd => ?_
  obtain ⟨⟨_, _, _, _, _, _, _, _, hy⟩, hw⟩ := hd
  refine ⟨⟨_, _, _, _, _, _, _, _, by rw [hy]⟩, fun hx => ?_⟩
  exact ⟨(hw hx).1, (hw hx).2.1, .inr rfl⟩

theorem Board.askAgain_kept (h : b.kept c) (d : DriveNo) (hx : (b.drv d).lp.waitsOnBuffer = true) :
    b.kept (c.askAgain d) := by
  have relay (c : Board) (h : b.kept c) : b.kept (c.makeRelay d) := by
    unfold Board.makeRelay
    dsimp only
    have set (c : Board) (h : b.kept c) (course : Course) (f : Channel → Channel)
        (hf : ∀ rc, ∃ shift setup, f rc = { rc with shift := shift, setup := setup }) :
        b.kept ((c.modLp d fun lp => { lp with cmd := { lp.cmd with course := course } }).modRc d f) := by
      refine Board.modDrv_kept (Board.modDrv_kept h d fun hd => ?_) d fun hd => ?_
      · obtain ⟨⟨_, _, _, _, _, _, _, _, hy⟩, -⟩ := hd
        exact ⟨⟨_, _, _, _, _, _, _, _, by rw [hy]⟩, fun hn => by rw [hx] at hn; cases hn⟩
      · obtain ⟨⟨_, _, _, _, _, _, _, _, hy⟩, -⟩ := hd
        obtain ⟨_, _, hr⟩ := hf _
        exact ⟨⟨_, _, _, _, _, _, _, _, by rw [hr, hy]⟩, fun hn => by rw [hx] at hn; cases hn⟩
    split
    · exact set _ h _ _ fun _ => ⟨_, _, rfl⟩
    · exact set _ (Board.setAside_kept h _ _) _ _ fun _ => ⟨_, _, rfl⟩
  unfold Board.askAgain
  dsimp only
  split
  · split
    · refine Board.request_kept (Board.modDrv_kept (Board.dropOps_kept h _) d fun hd => ?_) _ _ _
      obtain ⟨⟨_, _, _, _, _, _, _, _, hy⟩, -⟩ := hd
      exact ⟨⟨_, _, _, _, _, _, _, _, by rw [hy]⟩, fun hn => by rw [hx] at hn; cases hn⟩
    · exact relay _ (Board.voidBuffer_kept h d)
  · exact relay _ (Board.voidBuffer_kept h d)

theorem Board.entryChanged_kept (h : b.kept c) (a : Addr) : b.kept (c.entryChanged a) := by
  unfold Board.entryChanged
  dsimp only
  split
  · exact h
  · rename_i hb
    push Not at hb
    split
    · refine Board.modDrv_kept h _ fun hd => ?_
      obtain ⟨⟨_, _, _, _, _, _, _, _, hy⟩, hw⟩ := hd
      exact ⟨⟨_, _, _, _, _, _, _, _, by rw [hy]⟩, hw⟩
    · split
      · rename_i hwait
        refine Board.askAgain_kept h _ ?_
        by_contra hx
        rw [Bool.not_eq_true] at hx
        obtain ⟨-, h2, h3⟩ := (h.2 a.drive).2 hx
        rcases h3 with h3 | h3
        · unfold LivePath.waitsOnBuffer at hx hwait
          rw [h2, h3] at hwait
          rw [hwait] at hx; cases hx
        · exact absurd h3 hb.2.2
      · exact Board.voidBuffer_kept h _

theorem Board.createEntry_kept (h : b.kept c) (a : Addr) (n : Nat) (k : KeepKind) : b.kept (c.createEntry a n k) := by
  unfold Board.createEntry
  dsimp only
  refine Board.entryChanged_kept ?_ _
  have h1 (ts : Store) : b.kept (({ c with ts := ts } : Board).setKeep n .entry) :=
    Board.kept_congr h rfl ⟨rfl, rfl, rfl, rfl⟩
  split
  · split
    · exact h1 _
    · exact Board.letGo_kept (h1 _) _
  · exact h1 _

theorem Board.placeEntry_kept (h : b.kept c) (a : Addr) : b.kept (c.placeEntry a) := by
  refine Board.entryChanged_kept ?_ _
  exact Board.kept_congr h rfl ⟨rfl, rfl, rfl, rfl⟩

theorem Board.releaseEntry_kept (h : b.kept c) (a : Addr) : b.kept (c.releaseEntry a) := by
  unfold Board.releaseEntry
  split
  · refine Board.entryChanged_kept (Board.letGo_kept ?_ _) _
    exact Board.kept_congr h rfl ⟨rfl, rfl, rfl, rfl⟩
  · exact h

/-! ### Finishing (R108, R111, R112) -/

theorem Board.enterBests_kept (h : b.kept c) (j : Job) : b.kept (c.enterBests j) := by
  refine Board.foldl_kept (fun c r h => ?_) _ h
  split
  · split
    · exact h
    · refine Board.modJob_kept ?_ _ _
      unfold Board.enterResult
      repeat' split
      all_goals first | exact Board.createEntry_kept h _ _ _ | exact Board.letGo_kept h _
  · exact h

theorem Board.relayEntries_kept (h : b.kept c) (j : Job) : b.kept (c.relayEntries j) := by
  unfold Board.relayEntries
  dsimp only
  refine Board.kept_congr (c := if j.retain then _ else _) ?_ rfl ⟨rfl, rfl, rfl, rfl⟩
  split
  · refine Board.foldl_kept (fun c r h => ?_) _ (Board.foldl_kept (fun c e h => Board.placeEntry_kept h _) _ h)
    split
    · split
      · unfold Board.startCopy
        dsimp only
        split
        · exact h
        · exact Board.request_kept (Board.createEntry_kept (Board.setKeep_kept h _ _) _ _ _) _ _ _
      · exact h
    · exact h
  · exact Board.foldl_kept (fun c e h => Board.releaseEntry_kept h _) _ h

theorem Board.askEnd_kept (h : b.kept c) (d : DriveNo) (n : Nat) : b.kept (c.askEnd d n) := by
  unfold Board.askEnd
  dsimp only
  repeat' split
  all_goals first | exact h | skip
  all_goals
    refine Board.modDrv_kept h _ fun hd => ?_
    obtain ⟨⟨_, _, _, _, _, _, _, _, hy⟩, hw⟩ := hd
    exact ⟨⟨_, _, _, _, _, _, _, _, by rw [hy]⟩, hw⟩

theorem Board.discardSolve_kept (h : b.kept c) (n : Nat) : b.kept (c.discardSolve n) := by
  unfold Board.discardSolve Board.endSolve
  repeat' split
  all_goals exact Board.kept_congr h rfl ⟨rfl, rfl, rfl, rfl⟩

theorem Board.addReport_kept (h : b.kept c) (t : Track) (m : SectorSet) (src : Source) :
    b.kept (c.addReport t m src) := by
  unfold Board.addReport
  dsimp only
  repeat' split
  all_goals first | exact Board.kept_congr h rfl ⟨rfl, rfl, rfl, rfl⟩ | skip
  refine Board.foldl_kept (fun c k h => ?_) _ h
  unfold Board.foldSector
  repeat' split
  all_goals exact Board.kept_congr h rfl ⟨rfl, rfl, rfl, rfl⟩

theorem Board.finishCore_kept (h : b.kept c) (n : Nat) (o : Outcome) : b.kept (c.finishCore n o) := by
  unfold Board.finishCore
  split
  · exact h
  · rename_i j _
    dsimp only
    have h1 : b.kept (match j.kind, o with
        | .salvage, .partialDone => c.enterBests j
        | .salvage, .driveLost => c.enterBests j
        | .salvage, .seekFailed => c.enterBests j
        | .relay, .complete => c.relayEntries j
        | _, _ => c) := by
      split
      all_goals first | exact h | exact Board.enterBests_kept h _ | exact Board.relayEntries_kept h _
    have h2 := Board.askEnd_kept (Board.note_kept h1 (some j.drive) (.jobDone j o)) j.drive n
    have h3 := Board.discardSolve_kept (c := Board.unqueueJob _ n)
      (Board.kept_congr h2 rfl ⟨rfl, rfl, rfl, rfl⟩) n
    have free (c : Board) (i : Job) (h : b.kept c) : b.kept ((c.freeCaptures i).freeReservations i) := by
      refine Board.foldl_kept (fun c r h => ?_) _ (Board.kept_congr h rfl ⟨rfl, rfl, rfl, rfl⟩)
      split
      · exact Board.letGo_kept h _
      · exact h
    split
    · refine Board.addReport_kept ?_ _ _ _
      exact Board.kept_congr (free _ _ h3) rfl ⟨rfl, rfl, rfl, rfl⟩
    · exact Board.kept_congr (free _ _ h3) rfl ⟨rfl, rfl, rfl, rfl⟩

/-! ### The examination (R103) -/

theorem Board.reserveSectors_kept (h : b.kept c) (t : Track) (l : List Nat) : b.kept (c.reserveSectors t l).1 := by
  induction l generalizing c with
  | nil => exact h
  | cons k l ih =>
    unfold Board.reserveSectors
    dsimp only
    repeat' split
    · exact ih h
    · exact ih (Board.setKeep_kept h _ _)
    · exact ih h

theorem Board.placeJob_kept (h : b.kept c) (r : FileReq) : b.kept (c.placeJob r).1 := by
  unfold Board.placeJob
  dsimp only
  split
  · exact Board.kept_congr (Board.reserveSectors_kept h _ _) rfl ⟨rfl, rfl, rfl, rfl⟩
  · exact Board.kept_congr h rfl ⟨rfl, rfl, rfl, rfl⟩

theorem Board.tryEntry_kept (h : b.kept c) (x : Suspect) : b.kept (c.tryEntry x) := by
  unfold Board.tryEntry
  extract_lets p r
  split
  · exact h
  · split
    · refine Board.modDrv_kept h _ fun hd => ?_
      obtain ⟨⟨_, _, _, _, _, _, _, _, hy⟩, hw⟩ := hd
      exact ⟨⟨_, _, _, _, _, _, _, _, by rw [hy]⟩, hw⟩
    · dsimp only
      have h1 := Board.note_kept (Board.placeJob_kept h r) (some (c.placeJob r).2.drive)
        (.suspectFiled x (c.placeJob r).2.id)
      unfold Board.finishAtOnce
      repeat' split
      · exact Board.finishCore_kept h1 _ _
      · exact Board.finishCore_kept h1 _ _
      · exact h1

theorem Board.examineFor_kept (h : b.kept c) (n : Nat) : b.kept (c.examineFor n) := by
  induction n generalizing c with
  | zero => exact Board.kept_congr h rfl ⟨rfl, rfl, rfl, rfl⟩
  | succ n ih =>
    unfold Board.examineFor
    split
    · refine ih (Board.foldl_kept (fun c d h => ?_) _ (Board.kept_congr h rfl ⟨rfl, rfl, rfl, rfl⟩))
      split
      · exact Board.foldl_kept (fun c x h => Board.tryEntry_kept h x) _ h
      · exact h
    · exact h

/-- What an examination leaves of the board: its time, the filing that waits, the answer, the upkeep, and of every drive
all but what Drive.kept names. -/
theorem Board.examine_kept (b : Board) : b.kept b.examine := Board.examineFor_kept b.kept_refl _

/-- What a finish leaves of it, its examination with it. -/
theorem Board.finish_kept (b : Board) (n : Nat) (o : Outcome) : b.kept (b.finish n o) :=
  Board.examineFor_kept (Board.finishCore_kept b.kept_refl n o) _

/-- What a report leaves of it, its examination with it. -/
theorem Board.report_kept (b : Board) (t : Track) (m : SectorSet) (src : Source) : b.kept (b.report t m src) :=
  Board.examineFor_kept (Board.addReport_kept b.kept_refl t m src) _

/-- An examination leaves none asked for. -/
theorem Board.examine_exam (b : Board) : b.examine.exam = false := by
  have h (n : Nat) : ∀ c : Board, (c.examineFor n).exam = false := by
    induction n with
    | zero => exact fun _ => rfl
    | succ n ih =>
      intro c
      unfold Board.examineFor
      split
      · exact ih _
      · rename_i hc; simpa using hc
  exact h _ b

end Sys2Proof.Machine
end

