-- ==== Sys2Proof/Laws/Link.lean ====
section
/-! SUPPORT. What the link's operations and the end of a step do. -/

namespace Sys2Proof.Machine

/-! ### Notices, frames and replies -/

theorem Link.joinNotice_queue (l : Link) (n : Note) : (l.joinNotice n).queue = l.queue := by
  unfold Link.joinNotice; split <;> rfl

theorem Link.joinNotice_framer (l : Link) (n : Note) : (l.joinNotice n).framer = l.framer := by
  unfold Link.joinNotice; split <;> rfl

theorem Link.joinNotice_bounded {l : Link} (n : Note) (h : l.bounded) : (l.joinNotice n).bounded := by
  obtain ⟨hq, hn, hl, hf⟩ := h
  unfold Link.joinNotice
  split
  · exact ⟨hq, by simp; omega, by simp, hf⟩
  · exact ⟨hq, hn, by simp, hf⟩

theorem Link.joinNotices_bounded {l : Link} (ns : List Note) (h : l.bounded) :
    (ns.foldl Link.joinNotice l).bounded := by
  induction ns generalizing l with
  | nil => exact h
  | cons n ns ih => exact ih (l.joinNotice_bounded n h)

/-- Everything nextFrame can do: nothing, or the oldest reply begun, or, with no reply, the oldest notice. -/
theorem Link.nextFrame_cases (l : Link) :
    l.nextFrame = l ∨
    (∃ r rs, l.tx = none ∧ l.replies = r :: rs ∧ l.nextFrame = { l with tx := some (.reply r), replies := rs }) ∨
    (∃ n ns, l.tx = none ∧ l.replies = [] ∧ l.notices = n :: ns ∧
      l.nextFrame = { l with tx := some (.notice n), notices := ns }) := by
  unfold Link.nextFrame
  split
  · exact .inl rfl
  · exact .inl rfl
  · split
    · exact .inr (.inl ⟨_, _, ‹_›, ‹_›, rfl⟩)
    · exact .inr (.inr ⟨_, _, ‹_›, ‹_›, ‹_›, rfl⟩)
    · exact .inl rfl

theorem Link.nextFrame_bounded {l : Link} (h : l.bounded) : l.nextFrame.bounded := by
  obtain e | ⟨r, rs, -, -, e⟩ | ⟨n, ns, -, -, hn, e⟩ := l.nextFrame_cases
  · rwa [e]
  · rw [e]; exact h
  · rw [e]
    obtain ⟨hq, hk, hl, hf⟩ := h
    exact ⟨hq, by rw [hn] at hk; simp at hk; simp only; omega, hl, hf⟩

theorem Link.endHandling_bounded {l : Link} (a : Answer) (h : l.bounded) : (l.endHandling a).bounded := by
  obtain ⟨hq, hn, hl, hf⟩ := h
  unfold Link.endHandling
  split
  · exact ⟨hq, hn, hl, hf⟩
  · split
    · rename_i e _; rw [e] at hq; simp at hq
      exact ⟨by simp only; omega, hn, hl, hf⟩
    · exact ⟨hq, hn, hl, hf⟩

/-! ### The end of a step -/

@[simp] theorem settle_dram (s : State) (b : Board) (l : Link) (m : Dram) : (settle s b l m).dram = m := rfl

@[simp] theorem settle_pending (s : State) (b : Board) (l : Link) (m : Dram) :
    (settle s b l m).pending = s.pending := rfl

theorem settle_quiet (s : State) (b : Board) (l : Link) (m : Dram) : (settle s b l m).quiet :=
  ⟨rfl, rfl, rfl, rfl⟩

theorem settle_link_bounded (s : State) (b : Board) {l : Link} (m : Dram) (h : l.bounded) :
    (settle s b l m).link.bounded := by
  unfold settle
  refine Link.nextFrame_bounded (Link.joinNotices_bounded _ ?_)
  split
  · exact Link.endHandling_bounded _ h
  · exact h

/-- No examination asked for: the examination changes nothing (R103). -/
theorem Board.examine_of_not_exam {b : Board} (h : b.exam = false) : b.examine = b := by
  unfold Board.examine Board.examineFor
  simp [h]

/-- No solve has ended: none is started (R124). -/
theorem Board.nextSolve_of_not_over {b : Board} (h : b.solveOver = false) : b.nextSolve = b := by
  unfold Board.nextSolve Board.nextSolveFor
  simp [h]

/-- With no examination, answer, notice or ended solve the end of a step only lets the next frame begin. -/
theorem settle_of_quiet (s : State) {b : Board} (l : Link) (m : Dram) (ho : b.out = []) (ha : b.answer = none)
    (he : b.exam = false) (hv : b.solveOver = false) :
    settle s b l m = { board := b, link := l.nextFrame, dram := m, pending := s.pending } := by
  obtain ⟨⟩ := b
  simp only at ho ha he hv
  subst ho ha he hv
  unfold settle
  rw [Board.nextSolve_of_not_over rfl, Board.examine_of_not_exam rfl]
  rfl

/-! ### Steps by the shape of their meaning -/

theorem onBoard_next (s : State) (f : Board → Board) :
    onBoard s f = .next (settle s (f s.board) s.link s.dram) := rfl

theorem onLink_next (s : State) (f : Board → Link → Board × Link) :
    onLink s f = .next (settle s (f s.board s.link).1 (f s.board s.link).2 s.dram) := rfl

theorem onStore_ok {s : State} {f : Board → Dram → Except Fault (Board × Dram)} {b : Board} {m : Dram}
    (h : f s.board s.dram = .ok (b, m)) : onStore s f = .next (settle s b s.link m) := by
  unfold onStore; rw [h]

/-- A request of the row's kind with a fitting length, handled (R158, R164). -/
theorem handleRequest_inHand {s : State} {kind : Byte} {p : List Byte} (h : s.inHand kind p)
    (f : Board → List Byte → Board) :
    handleRequest s kind f =
      .next (settle s (f s.board p)
        (if (f s.board p).answer.isNone then { s.link with hand := .handling } else s.link) s.dram) := by
  obtain ⟨⟨r, hr, rfl, rfl⟩, hl⟩ := h
  simp [handleRequest, onLink_next, hr, hl]

end Sys2Proof.Machine
end

