-- ==== Sys2Proof/Laws/Ops.lean ====
section
/-! SUPPORT. What the shared operations over the board do, once for each. -/

namespace Sys2Proof.Machine

/-- No operation withdrawn and no DRAINING slot without a holder: dropOps changes nothing (R131). -/
theorem Board.dropOps_none {b : Board} {p : StoreOp → Bool} (h : ∀ op ∈ b.ts.ops, p op = false)
    (hd : ∀ x ∈ b.ts.keep, x.2 = .draining → b.ts.slotHeld x.1 = true) : b.dropOps p = b := by
  have h2 : b.ts.ops.filter p = [] := by
    rw [List.filter_eq_nil_iff]; intro op ho; simp [h op ho]
  have h3 : b.ts.ops.filter (fun op => !p op) = b.ts.ops := by
    rw [List.filter_eq_self]; intro op ho; simp [h op ho]
  have h4 : b.ts.keep.filter (fun x => !(Decidable.decide (x.2 = .draining) && !b.ts.ops.any (·.holds x.1))) =
      b.ts.keep := by
    rw [List.filter_eq_self]; intro x hx
    by_cases hx2 : x.2 = .draining
    · have := hd x hx hx2
      unfold Store.slotHeld at this
      rw [this]; simp
    · simp [hx2]
  unfold Board.dropOps
  simp only [h2, h3]
  rw [h4]
  cases b with
  | mk now s1 s2 r ds re su ts => cases ts; simp

/-- An emit-buffer fill withdrawn where none is in progress (R26). -/
theorem Board.abandonFill_none {b : Board} {d : DriveNo} (h : ∀ op ∈ b.ts.ops, op.kind ≠ .fill d)
    (hd : ∀ x ∈ b.ts.keep, x.2 = .draining → b.ts.slotHeld x.1 = true) : b.abandonFill d = b :=
  Board.dropOps_none (fun op ho => by simp [h op ho]) hd

/-- Whether a PRESSING eligible job exists depends on the jobs, the speed doubt and the share mode (R75, R76). -/
theorem Board.pressing_congr {b b' : Board} (d : DriveNo) (h1 : b'.re = b.re)
    (h2 : (b'.drv d).rt.doubt = (b.drv d).rt.doubt)
    (h3 : (b'.drv d).da.share.mode = (b.drv d).da.share.mode) : b'.pressing d = b.pressing d := by
  unfold Board.pressing Board.eligible
  rw [h1, h2, h3]

/-- No job is eligible under LIVE_ONLY (R75). -/
theorem Board.pressing_mode {b : Board} {d : DriveNo} (h : b.pressing d = true) :
    (b.drv d).da.share.mode ≠ .liveOnly := by
  unfold Board.pressing at h
  simp only [List.any_eq_true, Bool.and_eq_true] at h
  obtain ⟨j, -, hj, -⟩ := h
  unfold Board.eligible at hj
  simp only [Bool.and_eq_true, decide_eq_true_eq] at hj
  exact hj.2

/-- A LIVE_BUSY arbiter under a mode other than SALVAGE_ONLY is TAKING exactly when a PRESSING eligible job
exists (R76). -/
theorem Board.enterTaking_busy {b : Board} {d : DriveNo} (ho : (b.drv d).da.owner = .liveBusy)
    (hm : (b.drv d).da.share.mode ≠ .salvageOnly) :
    b.enterTaking d = if b.pressing d then b.modDa d fun da => { da with owner := .taking } else b := by
  unfold Board.enterTaking
  by_cases h : b.pressing d
  · have := Board.pressing_mode h
    rw [if_pos h]
    simp only [ho, h, and_true, true_and]
    rw [if_pos]
    cases hmm : (b.drv d).da.share.mode <;> simp_all
  · simp [h]

/-- An arbiter that is not LIVE_BUSY does not enter TAKING (R76). -/
theorem Board.enterTaking_other {b : Board} {d : DriveNo} (ho : (b.drv d).da.owner ≠ .liveBusy) :
    b.enterTaking d = b := by
  unfold Board.enterTaking
  simp [ho]

/-- With no command held, a drive that becomes LIVE_IDLE starts nothing (R20, R71). -/
theorem Board.goIdle_free {b : Board} {d : DriveNo} (h : (b.drv d).lp.cmd.phase ≠ .held) :
    b.goIdle d = b.modDa d fun da => { da with owner := .liveIdle, idleStart := some b.now } := by
  unfold Board.goIdle Board.startHeld
  simp only [Board.modDa_lp]
  split
  · rename_i hp _; exact absurd hp h
  · rfl

/-- No job of a track: nothing is superseded and no RELAY is marked stale (R40, R134). -/
theorem Board.handOn_free {b : Board} {a : Addr} (h : b.trackJob a.track = none) : b.handOn a = b := by
  unfold Board.handOn Board.supersede
  rw [h]
  unfold Board.markStale
  simp only [h]

/-! ### The tables keep their order (R128, R132, R142) -/

/-- A number put into a list holds with what the list held. -/
theorem mem_insertNat {n m : Nat} {l : List Nat} : m ∈ insertNat n l ↔ m = n ∨ m ∈ l := by
  induction l with
  | nil => simp [insertNat]
  | cons u us ih => unfold insertNat; split_ifs <;> simp_all; tauto

/-- A number put into a rising list leaves it rising. -/
theorem insertNat_ordered {n : Nat} {l : List Nat} (h : l.Pairwise (· < ·)) :
    (insertNat n l).Pairwise (· < ·) := by
  induction l with
  | nil => simp [insertNat]
  | cons u us ih =>
    have hu := List.pairwise_cons.1 h
    unfold insertNat
    split_ifs with h1 h2
    · exact List.pairwise_cons.2 ⟨by simp only [List.mem_cons]; rintro a (rfl | ha); exacts [h1, h1.trans (hu.1 a ha)], h⟩
    · exact h
    · refine List.pairwise_cons.2 ⟨fun a ha => ?_, ih hu.2⟩
      rcases mem_insertNat.1 ha with rfl | ha
      · omega
      · exact hu.1 a ha

/-- The slots in use after one is given a state: it, and those before. -/
theorem putKeep_slots (slot : Nat) (st : KeepState) (l : List (Nat × KeepState)) :
    (putKeep slot st l).map (·.1) = insertNat slot (l.map (·.1)) := by
  induction l with
  | nil => rfl
  | cons p us ih =>
    obtain ⟨u, x⟩ := p
    unfold putKeep
    simp only [List.map_cons, insertNat]
    split_ifs <;> simp_all

/-- The addresses of the directory after an entry is made: its own, and those before (R132). -/
theorem dirInsert_keys (e : KeepEntry) (l : List KeepEntry) :
    (dirInsert e l).map (·.addr.key) = insertNat e.addr.key (l.map (·.addr.key)) := by
  induction l with
  | nil => rfl
  | cons x xs ih =>
    unfold dirInsert
    simp only [List.map_cons, insertNat]
    split_ifs <;> simp_all

end Sys2Proof.Machine
end

