-- ==== Sys2Proof/Laws/Range.lean ====
section
/-! SUPPORT. The board's operations keep the tables,
    counters and trackers in range and the profiles as they are. -/

namespace Sys2Proof.Machine

/-- The drives' profiles are those of q, and every table, counter and tracker is in range. -/
def Board.fits (b : Board) (q : DriveNo → Profile) : Prop := b.inRange ∧ ∀ d, (b.drv d).profile = q d

theorem Board.fits_of {b c : Board} {q : DriveNo → Profile} (h : b.fits q) (hd : c.drives = b.drives)
    (hj : c.re.jobs.length = b.re.jobs.length) (hs : c.re.suspects.length ≤ b.re.suspects.length)
    (hl : c.re.ladder = b.re.ladder) (hk : c.su.k = b.su.k) (ht : c.su.threshold = b.su.threshold)
    (hp : c.sk.pending = b.sk.pending) (hg : c.sk.log = b.sk.log) : c.fits q := by
  obtain ⟨⟨h1, h2, h3, h4, h5, h6, h7, h8, h9, h10⟩, h11⟩ := h
  unfold Board.fits Board.inRange Board.drv
  rw [hd, hj, hl, hk, ht, hp, hg]
  exact ⟨⟨h1, h2, le_trans hs h3, h4, h5, h6, h7, h8, h9, h10⟩, h11⟩

theorem Board.modDrv_fits {b : Board} {q : DriveNo → Profile} (h : b.fits q) (d : DriveNo) {f : Drive → Drive}
    (hf : (f (b.drv d)).inRange) (hp : (f (b.drv d)).profile = q d) : (b.modDrv d f).fits q := by
  obtain ⟨⟨h1, h2⟩, h3⟩ := h
  refine ⟨⟨fun e => ?_, h2⟩, fun e => ?_⟩
  · by_cases he : e = d
    · subst he; simpa [Board.drv, Board.modDrv] using hf
    · have := h1 e
      simpa [Board.drv, Board.modDrv, Quad.get_set_other _ _ he] using this
  · by_cases he : e = d
    · subst he; simpa [Board.drv, Board.modDrv] using hp
    · have := h3 e
      simpa [Board.drv, Board.modDrv, Quad.get_set_other _ _ he] using this

theorem Board.fits_mk {b : Board} {q : DriveNo → Profile} (h : b.fits q) (n : Time) (s1 s2 r : Bool)
    (t : Store)
    (f : Option (List Byte)) (o : List Note) (a : Option Answer) (e v : Bool) :
    (Board.mk n s1 s2 r b.drives b.re b.su t b.sk f o a e v).fits q := h

theorem Board.fits_mkSu {b : Board} {q : DriveNo → Profile} (h : b.fits q) (n : Time) (s1 s2 r : Bool)
    (t : Store)
    (f : Option (List Byte)) (o : List Note) (a : Option Answer) (e v : Bool) (qu : List (Nat × Nat))
    (fl : Option Flight) :
    (Board.mk n s1 s2 r b.drives b.re ⟨qu, fl, b.su.k, b.su.threshold⟩ t b.sk f o a e v).fits q := h

theorem Board.fits_mkRe {b : Board} {q : DriveNo → Profile} (h : b.fits q) (n : Time) (s1 s2 r : Bool)
    (t : Store)
    (f : Option (List Byte)) (o : List Note) (a : Option Answer) (e v : Bool) {re : Engine}
    (hj : re.jobs.length ≤ 8) (hs : re.suspects.length ≤ 64) (hl : re.ladder = b.re.ladder) :
    (Board.mk n s1 s2 r b.drives re b.su t b.sk f o a e v).fits q := by
  obtain ⟨⟨h1, h2, h3, h4, h5, h6⟩, h11⟩ := h
  exact ⟨⟨h1, hj, hs, by rw [hl]; exact h4, by rw [hl]; exact h5, h6⟩, h11⟩

theorem Board.fits_mkSk {b : Board} {q : DriveNo → Profile} (h : b.fits q) (n : Time) (s1 s2 r : Bool)
    (t : Store)
    (f : Option (List Byte)) (o : List Note) (a : Option Answer) (e v : Bool) {sk : Upkeep}
    (hp : sk.pending ≤ 15) (hl : sk.log.length ≤ 16) :
    (Board.mk n s1 s2 r b.drives b.re b.su t sk f o a e v).fits q := by
  obtain ⟨⟨h1, h2, h3, h4, h5, h6, h7, h8, -⟩, h11⟩ := h
  exact ⟨⟨h1, h2, h3, h4, h5, h6, h7, h8, hp, hl⟩, h11⟩

theorem fits_foldl {α : Type} {q : DriveNo → Profile} {f : Board → α → Board} (l : List α)
    (hf : ∀ b x, b.fits q → (f b x).fits q) {b : Board} (h : b.fits q) : (l.foldl f b).fits q := by
  induction l generalizing b with
  | nil => exact h
  | cons x xs ih => exact ih (hf b x h)

theorem Board.fits.jobs {b : Board} {q : DriveNo → Profile} (h : b.fits q) : b.re.jobs.length ≤ 8 := h.1.2.1

theorem Board.fits.suspects {b : Board} {q : DriveNo → Profile} (h : b.fits q) : b.re.suspects.length ≤ 64 :=
  h.1.2.2.1

theorem Board.filterSuspects_fits {b : Board} {q : DriveNo → Profile} (h : b.fits q) (p : Suspect → Bool) :
    ({ b with re := { b.re with suspects := b.re.suspects.filter p } } : Board).fits q :=
  Board.fits_of h rfl rfl (List.length_filter_le _ _) rfl rfl rfl rfl rfl

theorem Board.filterJobs_fits {b : Board} {q : DriveNo → Profile} (h : b.fits q) (p : Job → Bool) :
    ({ b with re := { b.re with jobs := b.re.jobs.filter p }, exam := true } : Board).fits q :=
  Board.fits_mkRe h _ _ _ _ _ _ _ _ _ _ (le_trans (List.length_filter_le p b.re.jobs) h.jobs) h.suspects rfl

theorem Board.autoQuad_fits {b : Board} {q : DriveNo → Profile} (h : b.fits q) (a : Quad Bool) :
    ({ b with re := { b.re with auto := a }, exam := true } : Board).fits q := h

theorem Board.addSuspect_fits {b : Board} {q : DriveNo → Profile} (h : b.fits q) (x : Suspect)
    (hl : b.re.suspects.length < 64) :
    ({ b with re := { b.re with suspects := b.re.suspects ++ [x] }, exam := true } : Board).fits q :=
  Board.fits_mkRe (re := { b.re with suspects := b.re.suspects ++ [x] }) h _ _ _ _ _ _ _ _ _ _ h.jobs
    (by simp only [List.length_append, List.length_singleton]; omega) rfl

theorem Board.modLp_fits {b : Board} {q : DriveNo → Profile} (h : b.fits q) (d : DriveNo)
    (f : LivePath → LivePath) : (b.modLp d f).fits q := Board.modDrv_fits h d (h.1.1 d) (h.2 d)

theorem Board.modDa_fits {b : Board} {q : DriveNo → Profile} (h : b.fits q) (d : DriveNo)
    (f : Arbiter → Arbiter) : (b.modDa d f).fits q := Board.modDrv_fits h d (h.1.1 d) (h.2 d)

theorem Board.modRc_fits {b : Board} {q : DriveNo → Profile} (h : b.fits q) (d : DriveNo)
    (f : Channel → Channel) : (b.modRc d f).fits q := Board.modDrv_fits h d (h.1.1 d) (h.2 d)

/-- A tracker changed within its ranges (R41). -/
theorem Board.modRt_fits {b : Board} {q : DriveNo → Profile} (h : b.fits q)
    (d : DriveNo) {f : Tracker → Tracker}
    (hp : (f (b.drv d).rt).position < (q d).sectors) (hh : (f (b.drv d).rt).history.length ≤ 8)
    (hb : (f (b.drv d).rt).inBand ≤ 8) : (b.modRt d f).fits q := by
  have := h.1.1 d
  refine Board.modDrv_fits h d ?_ (h.2 d)
  rw [← h.2 d] at hp
  obtain ⟨h1, h2, h3, h4, h5, h6, h7, h8, -⟩ := this
  exact ⟨h1, h2, h3, h4, h5, h6, h7, h8, hp, hh, hb⟩

theorem Board.modPins_fits {b : Board} {q : DriveNo → Profile} (h : b.fits q) (d : DriveNo)
    (f : Pins → Pins) : (b.modPins d f).fits q := Board.modDrv_fits h d (h.1.1 d) (h.2 d)

theorem Board.note_fits {b : Board} {q : DriveNo → Profile} (h : b.fits q) (d : Option DriveNo)
    (body : NoticeBody) :
    (b.note d body).fits q := by
  refine Board.fits_of h ?_ ?_ ?_ ?_ ?_ ?_ ?_ ?_ <;> simp [Board.note]

theorem Board.reply_fits {b : Board} {q : DriveNo → Profile} (h : b.fits q) (st : Status)
    (a : Bool) (l : List Byte) :
    (b.reply st a l).fits q := by
  refine Board.fits_of h ?_ ?_ ?_ ?_ ?_ ?_ ?_ ?_ <;> simp [Board.reply]

theorem Board.deny_fits {b : Board} {q : DriveNo → Profile} (h : b.fits q) (status : Status) :
    (b.deny status).fits q := by
  unfold Board.deny
  try dsimp only
  all_goals exact h

theorem Board.modJob_fits {b : Board} {q : DriveNo → Profile} (h : b.fits q) (n : Nat)
    (f : Job → Job) :
    (b.modJob n f).fits q := by
  refine Board.fits_of h ?_ ?_ ?_ ?_ ?_ ?_ ?_ ?_ <;> simp [Board.modJob]

theorem Board.setKeep_fits {b : Board} {q : DriveNo → Profile} (h : b.fits q) (n : Nat)
    (st : KeepState) :
    (b.setKeep n st).fits q := by
  refine Board.fits_of h ?_ ?_ ?_ ?_ ?_ ?_ ?_ ?_ <;> simp [Board.setKeep]

theorem Board.eraseKeep_fits {b : Board} {q : DriveNo → Profile} (h : b.fits q) (n : Nat) :
    (b.eraseKeep n).fits q := by
  refine Board.fits_of h ?_ ?_ ?_ ?_ ?_ ?_ ?_ ?_ <;> simp [Board.eraseKeep]

theorem Board.usePool_fits {b : Board} {q : DriveNo → Profile} (h : b.fits q) (n : Nat) :
    (b.usePool n).fits q := by
  refine Board.fits_of h ?_ ?_ ?_ ?_ ?_ ?_ ?_ ?_ <;> simp [Board.usePool]

theorem Board.freePool_fits {b : Board} {q : DriveNo → Profile} (h : b.fits q) (n : Nat) :
    (b.freePool n).fits q := by
  refine Board.fits_of h ?_ ?_ ?_ ?_ ?_ ?_ ?_ ?_ <;> simp [Board.freePool]

theorem Board.request_fits {b : Board} {q : DriveNo → Profile} (h : b.fits q) (k : OpKind)
    (n : Nat) (t : List Access) :
    (b.request k n t).fits q := by
  refine Board.fits_of h ?_ ?_ ?_ ?_ ?_ ?_ ?_ ?_ <;> simp [Board.request]

theorem Board.dropOps_fits {b : Board} {q : DriveNo → Profile} (h : b.fits q) (p : StoreOp → Bool) :
    (b.dropOps p).fits q := by
  refine Board.fits_of h ?_ ?_ ?_ ?_ ?_ ?_ ?_ ?_ <;> simp [Board.dropOps]

theorem Board.letGo_fits {b : Board} {q : DriveNo → Profile} (h : b.fits q) (slot : Nat) :
    (b.letGo slot).fits q := by
  unfold Board.letGo
  try dsimp only
  repeat' split
  all_goals exact h

theorem Board.abandonFill_fits {b : Board} {q : DriveNo → Profile} (h : b.fits q) (d : DriveNo) :
    (b.abandonFill d).fits q := by
  unfold Board.abandonFill
  try dsimp only
  all_goals exact h

theorem Board.startFill_fits {b : Board} {q : DriveNo → Profile} (h : b.fits q) (d : DriveNo) (a : Addr)
    (slot : Nat) :
    (b.startFill d a slot).fits q := by
  unfold Board.startFill
  try dsimp only
  all_goals first | exact h | simp (maxDischargeDepth := 40) only [h, Board.abandonFill_fits,
      Board.modLp_fits, Board.request_fits]

theorem Board.voidBuffer_fits {b : Board} {q : DriveNo → Profile} (h : b.fits q) (d : DriveNo) :
    (b.voidBuffer d).fits q := by
  unfold Board.voidBuffer
  try dsimp only
  all_goals first | exact h | simp (maxDischargeDepth := 40) only [h, Board.abandonFill_fits,
      Board.modLp_fits]

theorem Board.setAside_fits {b : Board} {q : DriveNo → Profile} (h : b.fits q) (serial k : Nat) :
    (b.setAside serial k).1.fits q := by
  unfold Board.setAside
  try dsimp only
  repeat' split
  all_goals first | exact h | simp (maxDischargeDepth := 40) only [h, Board.usePool_fits, Board.modJob_fits]

theorem Board.dropAside_fits {b : Board} {q : DriveNo → Profile} (h : b.fits q) (c : CaptureFor) :
    (b.dropAside c).fits q := by
  unfold Board.dropAside
  try dsimp only
  repeat' split
  all_goals first | exact h | simp (maxDischargeDepth := 40) only [h, Board.modJob_fits, Board.freePool_fits]

theorem Board.makeRelay_fits {b : Board} {q : DriveNo → Profile} (h : b.fits q) (d : DriveNo) :
    (b.makeRelay d).fits q := by
  unfold Board.makeRelay
  try dsimp only
  repeat' split
  all_goals first | exact h | simp (maxDischargeDepth := 40) only [h, Board.setAside_fits, Board.modLp_fits,
      Board.modRc_fits]

theorem Board.askAgain_fits {b : Board} {q : DriveNo → Profile} (h : b.fits q) (d : DriveNo) :
    (b.askAgain d).fits q := by
  unfold Board.askAgain
  try dsimp only
  repeat' split
  all_goals first | exact h | simp (maxDischargeDepth := 40) only [h, Board.startFill_fits,
      Board.voidBuffer_fits, Board.makeRelay_fits]

theorem Board.entryChanged_fits {b : Board} {q : DriveNo → Profile} (h : b.fits q) (a : Addr) :
    (b.entryChanged a).fits q := by
  unfold Board.entryChanged
  try dsimp only
  repeat' split
  all_goals first | exact h | simp (maxDischargeDepth := 40) only [h, Board.modLp_fits, Board.askAgain_fits,
      Board.voidBuffer_fits]

theorem Board.createEntry_fits {b : Board} {q : DriveNo → Profile} (h : b.fits q) (a : Addr) (slot : Nat)
    (kind : KeepKind) :
    (b.createEntry a slot kind).fits q := by
  unfold Board.createEntry
  try dsimp only
  repeat' split
  all_goals first | exact h | simp (maxDischargeDepth := 40) only [h, Board.setKeep_fits, Board.letGo_fits,
      Board.entryChanged_fits, Board.fits_mk]

theorem Board.modEntry_fits {b : Board} {q : DriveNo → Profile} (h : b.fits q) (a : Addr)
    (f : KeepEntry → KeepEntry) :
    (b.modEntry a f).fits q := by
  refine Board.fits_of h ?_ ?_ ?_ ?_ ?_ ?_ ?_ ?_ <;> simp [Board.modEntry]

theorem Board.damageEntry_fits {b : Board} {q : DriveNo → Profile} (h : b.fits q) (a : Addr) :
    (b.damageEntry a).fits q := by
  unfold Board.damageEntry
  try dsimp only
  repeat' split
  all_goals first | exact h | simp (maxDischargeDepth := 40) only [h, Board.modEntry_fits,
      Board.entryChanged_fits]

theorem Board.placeEntry_fits {b : Board} {q : DriveNo → Profile} (h : b.fits q) (a : Addr) :
    (b.placeEntry a).fits q := by
  unfold Board.placeEntry
  try dsimp only
  all_goals first | exact h | simp (maxDischargeDepth := 40) only [h, Board.modEntry_fits,
      Board.entryChanged_fits]

theorem Board.releaseEntry_fits {b : Board} {q : DriveNo → Profile} (h : b.fits q) (a : Addr) :
    (b.releaseEntry a).fits q := by
  unfold Board.releaseEntry
  try dsimp only
  repeat' split
  all_goals first | exact h | simp (maxDischargeDepth := 40) only [h, Board.letGo_fits,
      Board.entryChanged_fits, Board.fits_mk]

theorem Board.foldSector_fits {b : Board} {q : DriveNo → Profile} (h : b.fits q) (serial : Nat) (t : Track)
    (k : Nat) :
    (b.foldSector serial t k).fits q := by
  unfold Board.foldSector
  try dsimp only
  repeat' split
  all_goals first | exact h | simp (maxDischargeDepth := 40) only [h, Board.setKeep_fits, Board.modJob_fits]

theorem Board.addReport_fits {b : Board} {q : DriveNo → Profile} (h : b.fits q) (t : Track) (mask : SectorSet)
    (src : Source) : (b.addReport t mask src).fits q := by
  unfold Board.addReport
  repeat' split
  · exact fits_foldl _ (fun b k hb => Board.foldSector_fits hb _ _ _) h
  · exact h
  · refine Board.fits_of h rfl rfl ?_ rfl rfl rfl rfl rfl
    exact le_of_eq (List.length_map _)
  · rename_i hl; exact Board.note_fits (Board.addSuspect_fits h _ hl) _ _
  · exact Board.note_fits h _ _

theorem Board.endSolve_fits {b : Board} {q : DriveNo → Profile} (h : b.fits q)  :
    (b.endSolve).fits q := by
  unfold Board.endSolve
  try dsimp only
  repeat' split
  all_goals first | exact h | simp (maxDischargeDepth := 40) only [h, Board.dropOps_fits, Board.modJob_fits,
      Board.fits_mkSu]

theorem Board.discardSolve_fits {b : Board} {q : DriveNo → Profile} (h : b.fits q) (serial : Nat) :
    (b.discardSolve serial).fits q := by
  unfold Board.discardSolve
  try dsimp only
  repeat' split
  all_goals first | exact h | simp (maxDischargeDepth := 40) only [h, Board.endSolve_fits]

theorem Board.supersedeSolve_fits {b : Board} {q : DriveNo → Profile} (h : b.fits q) (serial k : Nat) :
    (b.supersedeSolve serial k).fits q := by
  unfold Board.supersedeSolve
  try dsimp only
  repeat' split
  all_goals first | exact h | simp (maxDischargeDepth := 40) only [h, Board.endSolve_fits, Board.fits_mkSu]

theorem Board.unqueueJob_fits {b : Board} {q : DriveNo → Profile} (h : b.fits q) (n : Nat) :
    (b.unqueueJob n).fits q := by
  refine Board.fits_of h ?_ ?_ ?_ ?_ ?_ ?_ ?_ ?_ <;> simp [Board.unqueueJob]

theorem Board.joinQueue_fits {b : Board} {q : DriveNo → Profile} (h : b.fits q) (serial k : Nat) :
    (b.joinQueue serial k).fits q := by
  unfold Board.joinQueue
  try dsimp only
  repeat' split
  all_goals exact h

theorem Board.enterResult_fits {b : Board} {q : DriveNo → Profile} (h : b.fits q) (a : Addr) (slot : Nat)
    (r : Rating) (time : Time) (newly : Bool) :
    (b.enterResult a slot r time newly).1.fits q := by
  unfold Board.enterResult
  try dsimp only
  repeat' split
  all_goals first | exact h | simp (maxDischargeDepth := 40) only [h, Board.createEntry_fits,
      Board.letGo_fits]

theorem Board.enterBests_fits {b : Board} {q : DriveNo → Profile} (h : b.fits q) (j : Job) :
    (b.enterBests j).fits q := by
  unfold Board.enterBests
  refine fits_foldl _ (fun b r hb => ?_) h
  repeat' split
  · exact hb
  · exact Board.modJob_fits (Board.enterResult_fits hb _ _ _ _ _) _ _
  · exact hb

theorem Board.startCopy_fits {b : Board} {q : DriveNo → Profile} (h : b.fits q) (j : Job) (r : RelaySector)
    (c : Capture) :
    (b.startCopy j r c).fits q := by
  unfold Board.startCopy
  try dsimp only
  repeat' split
  all_goals first | exact h | simp (maxDischargeDepth := 40) only [h, Board.setKeep_fits,
      Board.createEntry_fits, Board.request_fits]

theorem Board.relayEntries_fits {b : Board} {q : DriveNo → Profile} (h : b.fits q) (j : Job) :
    (b.relayEntries j).fits q := by
  unfold Board.relayEntries
  have key : ∀ b1 : Board, b1.fits q →
      ({ b1 with re := { b1.re with suspects := b1.re.suspects.filter (·.track ≠ j.track) } } : Board).fits q :=
    fun b1 h1 => Board.filterSuspects_fits h1 _
  refine key _ ?_
  split
  · refine fits_foldl _ (fun b r hb => ?_) (fits_foldl _ (fun b e hb => Board.placeEntry_fits hb _) h)
    repeat' split
    · exact Board.startCopy_fits hb _ _ _
    · exact hb
    · exact hb
  · exact fits_foldl _ (fun b e hb => Board.releaseEntry_fits hb _) h

theorem Board.freeCaptures_fits {b : Board} {q : DriveNo → Profile} (h : b.fits q) (j : Job) :
    (b.freeCaptures j).fits q := by
  refine Board.fits_of h ?_ ?_ ?_ ?_ ?_ ?_ ?_ ?_ <;> simp [Board.freeCaptures]

theorem Board.freeReservations_fits {b : Board} {q : DriveNo → Profile} (h : b.fits q) (j : Job) :
    (b.freeReservations j).fits q := by
  unfold Board.freeReservations
  refine fits_foldl _ (fun b r hb => ?_) h
  split
  · exact Board.letGo_fits hb _
  · exact hb

theorem Board.askEnd_fits {b : Board} {q : DriveNo → Profile} (h : b.fits q) (d : DriveNo) (serial : Nat) :
    (b.askEnd d serial).fits q := by
  unfold Board.askEnd
  try dsimp only
  repeat' split
  all_goals first | exact h | simp (maxDischargeDepth := 40) only [h, Board.modDa_fits]

theorem Board.finishCore_fits {b : Board} {q : DriveNo → Profile} (h : b.fits q) (serial : Nat)
    (o : Outcome) :
    (b.finishCore serial o).fits q := by
  unfold Board.finishCore
  split
  · exact h
  · rename_i j _
    extract_lets b1 b2 b3 j' b4 src b5
    have h1 : b1.fits q := by
      simp only [b1]
      split
      · exact Board.enterBests_fits h j
      · exact Board.enterBests_fits h j
      · exact Board.enterBests_fits h j
      · exact Board.relayEntries_fits h j
      · exact h
    have h4 : b4.fits q := by
      simp (maxDischargeDepth := 40) only [b2, b3, b4, h1, Board.note_fits, Board.askEnd_fits,
        Board.unqueueJob_fits, Board.discardSolve_fits, Board.freeCaptures_fits, Board.freeReservations_fits]
    have h5 : b5.fits q := Board.filterJobs_fits h4 _
    split
    · exact Board.addReport_fits h5 _ _ _
    · exact h5

theorem Board.reserveSectors_re (b : Board) (t : Track) (ks : List Nat) :
    (b.reserveSectors t ks).1.re = b.re := by
  induction ks generalizing b with
  | nil => rfl
  | cons k ks ih =>
    unfold Board.reserveSectors
    dsimp only
    split
    · exact ih b
    · split
      · exact ih _
      · exact ih b

theorem Board.reserveSectors_fits {b : Board} {q : DriveNo → Profile} (h : b.fits q) (t : Track)
    (ks : List Nat) :
    (b.reserveSectors t ks).1.fits q := by
  induction ks generalizing b with
  | nil => exact h
  | cons k ks ih =>
    unfold Board.reserveSectors
    dsimp only
    split
    · exact ih h
    · split
      · exact ih (Board.setKeep_fits h _ _)
      · exact ih h

/-- A job placed in a table that is not full (R90, R91). -/
theorem Board.placeJob_fits {b : Board} {q : DriveNo → Profile} (h : b.fits q) (r : FileReq)
    (hj : b.re.jobs.length < 8) : (b.placeJob r).1.fits q := by
  have key : ∀ c : Board × List SalvageSector, c.1.fits q → c.1.re = b.re → ∀ j id n ss,
      ss.length ≤ c.1.re.suspects.length →
      ({ c.1 with re := { c.1.re with jobs := c.1.re.jobs ++ [j], lastId := id, nextSerial := n,
                                      suspects := ss } } : Board).fits q := by
    intro c hc hr j id n ss hs
    refine Board.fits_mkRe hc _ _ _ _ _ _ _ _ _ _ ?_ (le_trans hs hc.suspects) rfl
    simp only [List.length_append, List.length_singleton, hr]
    omega
  have hs : ∀ (c : Prop) [Decidable c] (l : List Suspect) p,
      (if c then l else l.filter p).length ≤ l.length := by
    intro c _ l p
    split
    · exact le_refl _
    · exact List.length_filter_le _ _
  unfold Board.placeJob
  cases r.kind
  · exact key _ (Board.reserveSectors_fits h _ _) (Board.reserveSectors_re b _ _) _ _ _ _ (hs _ _ _)
  · exact key (b, []) h rfl _ _ _ _ (hs _ _ _)
  · exact key (b, []) h rfl _ _ _ _ (hs _ _ _)

/-- A filing that passes its checks finds room in the table (R91). -/
theorem Board.fileCheck_room {b : Board} {r : FileReq} (h : b.fileCheck r = none) : b.re.jobs.length < 8 := by
  unfold Board.fileCheck at h
  by_contra hn
  cases hk : r.kind <;> simp only [hk] at h <;> (repeat' split at h) <;> simp_all

theorem Board.finishAtOnce_fits {b : Board} {q : DriveNo → Profile} (h : b.fits q) (j : Job) :
    (b.finishAtOnce j).fits q := by
  unfold Board.finishAtOnce
  try dsimp only
  repeat' split
  all_goals first | exact h | simp (maxDischargeDepth := 40) only [h, Board.finishCore_fits]

theorem Board.tryEntry_fits {b : Board} {q : DriveNo → Profile} (h : b.fits q) (x : Suspect) :
    (b.tryEntry x).fits q := by
  unfold Board.tryEntry
  extract_lets p r
  split
  · exact h
  · rename_i hc
    split
    · exact Board.modLp_fits h _ _
    · exact Board.finishAtOnce_fits (Board.note_fits (Board.placeJob_fits h r
        (Board.fileCheck_room (by simpa using hc))) _ _) _

theorem Board.walkSuspects_fits {b : Board} {q : DriveNo → Profile}
    (h : b.fits q) : b.walkSuspects.fits q := by
  unfold Board.walkSuspects
  refine fits_foldl _ (fun b d hb => ?_) h
  split
  · exact fits_foldl _ (fun b x hb => Board.tryEntry_fits hb x) hb
  · exact hb

theorem Board.examineFor_fits {b : Board} {q : DriveNo → Profile} (h : b.fits q) (n : Nat) :
    (b.examineFor n).fits q := by
  induction n generalizing b with
  | zero => exact h
  | succ n ih =>
    unfold Board.examineFor
    split
    · exact ih (Board.walkSuspects_fits h)
    · exact h

theorem Board.examine_fits {b : Board} {q : DriveNo → Profile} (h : b.fits q) : b.examine.fits q :=
  Board.examineFor_fits h _

theorem Board.report_fits {b : Board} {q : DriveNo → Profile} (h : b.fits q) (t : Track) (mask : SectorSet)
    (src : Source) : (b.report t mask src).fits q :=
  Board.examine_fits (Board.addReport_fits h _ _ _)

theorem Board.finish_fits {b : Board} {q : DriveNo → Profile} (h : b.fits q) (serial : Nat) (o : Outcome) :
    (b.finish serial o).fits q := by
  unfold Board.finish
  try dsimp only
  all_goals first | exact h | simp (maxDischargeDepth := 40) only [h, Board.finishCore_fits,
      Board.examine_fits]

theorem Board.restOrFinish_fits {b : Board} {q : DriveNo → Profile} (h : b.fits q) (serial : Nat) :
    (b.restOrFinish serial).fits q := by
  unfold Board.restOrFinish
  try dsimp only
  repeat' split
  all_goals first | exact h | simp (maxDischargeDepth := 40) only [h, Board.modJob_fits, Board.finish_fits]

theorem Board.settleCheck_fits {b : Board} {q : DriveNo → Profile} (h : b.fits q) (serial : Nat) :
    (b.settleCheck serial).fits q := by
  unfold Board.settleCheck
  try dsimp only
  repeat' split
  all_goals first | exact h | simp (maxDischargeDepth := 40) only [h, Board.finish_fits]

theorem Board.completeCheck_fits {b : Board} {q : DriveNo → Profile} (h : b.fits q) (serial : Nat) :
    (b.completeCheck serial).fits q := by
  unfold Board.completeCheck
  try dsimp only
  repeat' split
  all_goals first | exact h | simp (maxDischargeDepth := 40) only [h, Board.finish_fits]

theorem Board.markStale_fits {b : Board} {q : DriveNo → Profile} (h : b.fits q) (t : Track) :
    (b.markStale t).fits q := by
  unfold Board.markStale
  try dsimp only
  repeat' split
  all_goals first | exact h | simp (maxDischargeDepth := 40) only [h, Board.modJob_fits]

theorem Board.supersede_fits {b : Board} {q : DriveNo → Profile} (h : b.fits q) (a : Addr) :
    (b.supersede a).fits q := by
  unfold Board.supersede
  try dsimp only
  repeat' split
  all_goals first | exact h | simp (maxDischargeDepth := 40) only [h, Board.modJob_fits, Board.letGo_fits,
      Board.supersedeSolve_fits, Board.examine_fits, Board.completeCheck_fits, Board.settleCheck_fits]

theorem Board.handOn_fits {b : Board} {q : DriveNo → Profile} (h : b.fits q) (a : Addr) :
    (b.handOn a).fits q := by
  unfold Board.handOn
  try dsimp only
  all_goals first | exact h | simp (maxDischargeDepth := 40) only [h, Board.supersede_fits,
      Board.markStale_fits]

theorem Board.fileNow_fits {b : Board} {q : DriveNo → Profile} (h : b.fits q) (p : List Byte) :
    (b.fileNow p).fits q := by
  unfold Board.fileNow
  dsimp only
  repeat' split
  · exact Board.deny_fits h _
  · exact Board.deny_fits h _
  · exact Board.deny_fits h _
  · rename_i hc
    exact Board.finishAtOnce_fits (Board.reply_fits (Board.placeJob_fits h _ (Board.fileCheck_room hc)) _ _ _) _

theorem Board.afterGate_fits {b : Board} {q : DriveNo → Profile} (h : b.fits q) (d : DriveNo) :
    (b.afterGate d).fits q := by
  unfold Board.afterGate
  try dsimp only
  repeat' split
  all_goals first | exact h | simp (maxDischargeDepth := 40) only [h, Board.fileNow_fits, Board.modLp_fits,
      Board.fits_mk]

theorem Board.sendMove_fits {b : Board} {q : DriveNo → Profile} (h : b.fits q) (d : DriveNo) :
    (b.sendMove d).fits q := by
  unfold Board.sendMove
  try dsimp only
  all_goals first | exact h | simp (maxDischargeDepth := 40) only [h, Board.modPins_fits]

theorem Board.applyPending_fits {b : Board} {q : DriveNo → Profile} (h : b.fits q) (d : DriveNo) :
    (b.applyPending d).fits q := by
  unfold Board.applyPending
  try dsimp only
  all_goals first | exact h | simp (maxDischargeDepth := 40) only [h, Board.modDa_fits]

theorem Board.enterTaking_fits {b : Board} {q : DriveNo → Profile} (h : b.fits q) (d : DriveNo) :
    (b.enterTaking d).fits q := by
  unfold Board.enterTaking
  try dsimp only
  repeat' split
  all_goals first | exact h | simp (maxDischargeDepth := 40) only [h, Board.modDa_fits]

theorem Board.goBusy_fits {b : Board} {q : DriveNo → Profile} (h : b.fits q) (d : DriveNo) :
    (b.goBusy d).fits q := by
  unfold Board.goBusy
  try dsimp only
  all_goals first | exact h | simp (maxDischargeDepth := 40) only [h, Board.modDa_fits]

theorem Board.courseRead_fits {b : Board} {q : DriveNo → Profile} (h : b.fits q) (d : DriveNo) :
    (b.courseRead d).fits q := by
  unfold Board.courseRead
  try dsimp only
  repeat' split
  all_goals first | exact h | simp (maxDischargeDepth := 40) only [h, Board.modLp_fits,
      Board.startFill_fits, Board.makeRelay_fits]

theorem Board.startCommand_fits {b : Board} {q : DriveNo → Profile} (h : b.fits q) (d : DriveNo)
    (c : CtrlCmd) :
    (b.startCommand d c).fits q := by
  unfold Board.startCommand
  try dsimp only
  repeat' split
  all_goals first | exact h | simp (maxDischargeDepth := 40) only [h, Board.sendMove_fits, Board.modLp_fits,
      Board.goBusy_fits, Board.enterTaking_fits, Board.modPins_fits, Board.modDa_fits, Board.courseRead_fits]

theorem Board.clearHold_fits {b : Board} {q : DriveNo → Profile} (h : b.fits q) (d : DriveNo) :
    (b.clearHold d).fits q := by
  unfold Board.clearHold
  try dsimp only
  all_goals first | exact h | simp (maxDischargeDepth := 40) only [h, Board.modDa_fits]

theorem Board.startHeld_fits {b : Board} {q : DriveNo → Profile} (h : b.fits q) (d : DriveNo) :
    (b.startHeld d).fits q := by
  unfold Board.startHeld
  try dsimp only
  repeat' split
  all_goals first | exact h | simp (maxDischargeDepth := 40) only [h, Board.modLp_fits,
      Board.clearHold_fits, Board.startCommand_fits]

theorem Board.goIdle_fits {b : Board} {q : DriveNo → Profile} (h : b.fits q) (d : DriveNo) :
    (b.goIdle d).fits q := by
  unfold Board.goIdle
  try dsimp only
  all_goals first | exact h | simp (maxDischargeDepth := 40) only [h, Board.modDa_fits, Board.startHeld_fits]

theorem Board.handBack_fits {b : Board} {q : DriveNo → Profile} (h : b.fits q) (d : DriveNo) :
    (b.handBack d).fits q := by
  unfold Board.handBack
  try dsimp only
  all_goals first | exact h | simp (maxDischargeDepth := 40) only [h, Board.modDa_fits, Board.goIdle_fits]

theorem Board.restoreHead_fits {b : Board} {q : DriveNo → Profile} (h : b.fits q) (d : DriveNo) :
    (b.restoreHead d).fits q := by
  unfold Board.restoreHead
  try dsimp only
  all_goals first | exact h | simp (maxDischargeDepth := 40) only [h, Board.modPins_fits, Board.handBack_fits]

theorem Board.sendRestoreSeek_fits {b : Board} {q : DriveNo → Profile} (h : b.fits q) (d : DriveNo) :
    (b.sendRestoreSeek d).fits q := by
  unfold Board.sendRestoreSeek
  try dsimp only
  all_goals first | exact h | simp (maxDischargeDepth := 40) only [h, Board.sendMove_fits, Board.modDa_fits]

theorem Board.restoreSeek_fits {b : Board} {q : DriveNo → Profile} (h : b.fits q) (d : DriveNo) :
    (b.restoreSeek d).fits q := by
  unfold Board.restoreSeek
  try dsimp only
  repeat' split
  all_goals first | exact h | simp (maxDischargeDepth := 40) only [h, Board.restoreHead_fits,
      Board.sendRestoreSeek_fits]

theorem Board.setOffset_fits {b : Board} {q : DriveNo → Profile} (h : b.fits q) (d : DriveNo) (o : Offset) :
    (b.setOffset d o).fits q := by
  unfold Board.setOffset
  try dsimp only
  repeat' split
  all_goals first | exact h | simp (maxDischargeDepth := 40) only [h, Board.modRc_fits]

theorem Board.restoreSteps_fits {b : Board} {q : DriveNo → Profile} (h : b.fits q) (d : DriveNo) :
    (b.restoreSteps d).fits q := by
  unfold Board.restoreSteps
  try dsimp only
  repeat' split
  all_goals first | exact h | simp (maxDischargeDepth := 40) only [h, Board.setOffset_fits,
      Board.modDa_fits, Board.restoreSeek_fits]

theorem Board.restore_fits {b : Board} {q : DriveNo → Profile} (h : b.fits q) (d : DriveNo) :
    (b.restore d).fits q := by
  unfold Board.restore
  try dsimp only
  all_goals first | exact h | simp (maxDischargeDepth := 40) only [h, Board.modDa_fits,
      Board.restoreSteps_fits]

theorem Board.restoreFail_fits {b : Board} {q : DriveNo → Profile} (h : b.fits q) (d : DriveNo) :
    (b.restoreFail d).fits q := by
  unfold Board.restoreFail
  try dsimp only
  repeat' split
  all_goals first | exact h | simp (maxDischargeDepth := 40) only [h, Board.modDa_fits, Board.note_fits,
      Board.modLp_fits, Board.clearHold_fits]

theorem Board.rewait_fits {b : Board} {q : DriveNo → Profile} (h : b.fits q) (serial : Nat) :
    (b.rewait serial).fits q := by
  unfold Board.rewait
  try dsimp only
  all_goals first | exact h | simp (maxDischargeDepth := 40) only [h, Board.modJob_fits]

theorem Board.surveyEnd_fits {b : Board} {q : DriveNo → Profile} (h : b.fits q) (j : Job) (full found : Bool) :
    (b.surveyEnd j full found).fits q := by
  unfold Board.surveyEnd
  try dsimp only
  repeat' split
  all_goals first | exact h | simp (maxDischargeDepth := 40) only [h, Board.modJob_fits,
      Board.rewait_fits, Board.finish_fits]

theorem Board.reportSurvey_fits {b : Board} {q : DriveNo → Profile} (h : b.fits q) (d : DriveNo) :
    (b.reportSurvey d).fits q := by
  unfold Board.reportSurvey
  dsimp only
  split
  · exact h
  · exact Board.report_fits h _ _ _

theorem Board.relayEnd_fits {b : Board} {q : DriveNo → Profile} (h : b.fits q) (j : Job) (full : Bool) :
    (b.relayEnd j full).fits q := by
  unfold Board.relayEnd
  try dsimp only
  repeat' split
  all_goals first | exact h | simp (maxDischargeDepth := 40) only [h, Board.modJob_fits, Board.finish_fits,
      Board.rewait_fits]

theorem Board.salvageRest_fits {b : Board} {q : DriveNo → Profile} (h : b.fits q) (serial : Nat) :
    (b.salvageRest serial).fits q := by
  unfold Board.salvageRest
  try dsimp only
  repeat' split
  all_goals first | exact h | simp (maxDischargeDepth := 40) only [h, Board.rewait_fits,
      Board.restOrFinish_fits]

theorem Board.enginePassEnd_fits {b : Board} {q : DriveNo → Profile} (h : b.fits q) (serial : Nat)
    (full found : Bool) :
    (b.enginePassEnd serial full found).fits q := by
  unfold Board.enginePassEnd
  try dsimp only
  repeat' split
  all_goals first | exact h | simp (maxDischargeDepth := 40) only [h, Board.modJob_fits,
      Board.salvageRest_fits, Board.surveyEnd_fits, Board.relayEnd_fits]

theorem Board.enginePosEnd_fits {b : Board} {q : DriveNo → Profile} (h : b.fits q) (serial : Nat) :
    (b.enginePosEnd serial).fits q := by
  unfold Board.enginePosEnd
  try dsimp only
  repeat' split
  all_goals first | exact h | simp (maxDischargeDepth := 40) only [h, Board.modJob_fits,
      Board.salvageRest_fits, Board.rewait_fits]

theorem Board.setAsideRelay_fits {b : Board} {q : DriveNo → Profile} (h : b.fits q) (serial k : Nat) :
    (b.setAsideRelay serial k).1.fits q := by
  unfold Board.setAsideRelay
  try dsimp only
  repeat' split
  all_goals first | exact h | simp (maxDischargeDepth := 40) only [h, Board.usePool_fits, Board.modJob_fits]

theorem Board.salvagePlans_fits {b : Board} {q : DriveNo → Profile} (h : b.fits q) (serial : Nat)
    (rs : List SalvageSector) : (b.salvagePlans serial rs).1.fits q := by
  induction rs generalizing b with
  | nil => exact h
  | cons r rs ih =>
    unfold Board.salvagePlans
    split
    · exact ih (Board.setAside_fits h _ _)
    · exact ih h

theorem Board.preparePlans_fits {b : Board} {q : DriveNo → Profile} (h : b.fits q) (serial : Nat)
    (t : Track) (rs : List RelaySector) : (b.preparePlans serial t rs).1.fits q := by
  induction rs generalizing b with
  | nil => exact h
  | cons r rs ih =>
    unfold Board.preparePlans
    split
    · exact ih (Board.setAsideRelay_fits h _ _)
    · exact ih h

theorem Board.fatalWrite_fits {b : Board} {q : DriveNo → Profile} (h : b.fits q) (d : DriveNo)
    (serial : Nat) :
    (b.fatalWrite d serial).fits q := Board.modDa_fits (Board.modJob_fits h _ _) d _

theorem Board.startWriteFill_fits {b : Board} {q : DriveNo → Profile} (h : b.fits q) (d : DriveNo)
    (serial k : Nat) :
    (b.startWriteFill d serial k).fits q := by
  unfold Board.startWriteFill
  try dsimp only
  repeat' split
  all_goals first | exact h | simp (maxDischargeDepth := 40) only [h, Board.modDa_fits, Board.request_fits,
      Board.fatalWrite_fits]

theorem Board.dropWriteFill_fits {b : Board} {q : DriveNo → Profile} (h : b.fits q) (d : DriveNo) :
    (b.dropWriteFill d).fits q := by
  unfold Board.dropWriteFill
  try dsimp only
  all_goals first | exact h | simp (maxDischargeDepth := 40) only [h, Board.dropOps_fits, Board.modDa_fits]

theorem Board.givePass_fits {b : Board} {q : DriveNo → Profile} (h : b.fits q) (d : DriveNo) (j : Job) :
    (b.givePass d j).fits q := by
  unfold Board.givePass
  try dsimp only
  repeat' split
  all_goals first | exact h | simp (maxDischargeDepth := 40) only [h, Board.modRc_fits,
      Board.salvagePlans_fits, Board.preparePlans_fits]

theorem Board.passStart_fits {b : Board} {q : DriveNo → Profile} (h : b.fits q) (d : DriveNo) (j : Job) :
    (b.passStart d j).fits q := by
  unfold Board.passStart
  try dsimp only
  repeat' split
  all_goals first | exact h | simp (maxDischargeDepth := 40) only [h, Board.modDa_fits,
      Board.startWriteFill_fits, Board.givePass_fits]

theorem Board.posComplete_fits {b : Board} {q : DriveNo → Profile} (h : b.fits q) (d : DriveNo) :
    (b.posComplete d).fits q := by
  unfold Board.posComplete
  try dsimp only
  repeat' split
  all_goals first | exact h | simp (maxDischargeDepth := 40) only [h, Board.modDa_fits,
      Board.enginePosEnd_fits, Board.applyPending_fits, Board.restore_fits, Board.passStart_fits]

theorem Board.posOffsetOn_fits {b : Board} {q : DriveNo → Profile} (h : b.fits q) (d : DriveNo) :
    (b.posOffsetOn d).fits q := by
  unfold Board.posOffsetOn
  try dsimp only
  repeat' split
  all_goals first | exact h | simp (maxDischargeDepth := 40) only [h, Board.posComplete_fits,
      Board.setOffset_fits, Board.modDa_fits]

theorem Board.posHead_fits {b : Board} {q : DriveNo → Profile} (h : b.fits q) (d : DriveNo) :
    (b.posHead d).fits q := by
  unfold Board.posHead
  try dsimp only
  all_goals first | exact h | simp (maxDischargeDepth := 40) only [h, Board.modPins_fits,
      Board.posOffsetOn_fits]

theorem Board.posSeek_fits {b : Board} {q : DriveNo → Profile} (h : b.fits q) (d : DriveNo) :
    (b.posSeek d).fits q := by
  unfold Board.posSeek
  try dsimp only
  repeat' split
  all_goals first | exact h | simp (maxDischargeDepth := 40) only [h, Board.posHead_fits,
      Board.sendMove_fits, Board.modDa_fits]

theorem Board.posRecal_fits {b : Board} {q : DriveNo → Profile} (h : b.fits q) (d : DriveNo) :
    (b.posRecal d).fits q := by
  unfold Board.posRecal
  try dsimp only
  repeat' split
  all_goals first | exact h | simp (maxDischargeDepth := 40) only [h, Board.sendMove_fits, Board.modDa_fits,
      Board.posSeek_fits]

theorem Board.posBegin_fits {b : Board} {q : DriveNo → Profile} (h : b.fits q) (d : DriveNo) :
    (b.posBegin d).fits q := by
  unfold Board.posBegin
  try dsimp only
  repeat' split
  all_goals first | exact h | simp (maxDischargeDepth := 40) only [h, Board.setOffset_fits,
      Board.modDa_fits, Board.posRecal_fits]

theorem Board.activate_fits {b : Board} {q : DriveNo → Profile} (h : b.fits q) (j : Job) :
    (b.activate j).fits q := by
  unfold Board.activate
  try dsimp only
  all_goals first | exact h | simp (maxDischargeDepth := 40) only [h, Board.modJob_fits]

theorem Board.serve_fits {b : Board} {q : DriveNo → Profile} (h : b.fits q) (d : DriveNo) (j : Job) :
    (b.serve d j).2.fits q := by
  unfold Board.serve
  try dsimp only
  repeat' split
  all_goals first | exact h | simp (maxDischargeDepth := 40) only [h, Board.activate_fits,
      Board.finish_fits, Board.modDa_fits, Board.posBegin_fits]

theorem Board.decideFor_fits {b : Board} {q : DriveNo → Profile} (h : b.fits q) (d : DriveNo) (n : Nat) :
    (Board.decideFor d n b).fits q := by
  induction n generalizing b with
  | zero => exact Board.restore_fits h d
  | succ n ih =>
    unfold Board.decideFor
    dsimp only
    have h1 : ∀ f, ((b.applyPending d).modDa d f).fits q :=
      fun f => Board.modDa_fits (Board.applyPending_fits h d) d f
    repeat' split
    · exact Board.restore_fits (h1 _) d
    · exact Board.restore_fits (h1 _) d
    · exact Board.serve_fits (h1 _) d _
    · exact ih (Board.serve_fits (h1 _) d _)

theorem Board.decide_fits {b : Board} {q : DriveNo → Profile} (h : b.fits q) (d : DriveNo) :
    (b.decide d).fits q :=
  Board.decideFor_fits h d 8

theorem Board.takeFor_fits {b : Board} {q : DriveNo → Profile} (h : b.fits q) (d : DriveNo) (j : Job) :
    (b.takeFor d j).fits q := by
  unfold Board.takeFor
  try dsimp only
  repeat' split
  all_goals first | exact h | simp (maxDischargeDepth := 40) only [h, Board.serve_fits, Board.modDa_fits,
      Board.decide_fits]

theorem Board.tryTake_fits {b : Board} {q : DriveNo → Profile} (h : b.fits q) (d : DriveNo) :
    (b.tryTake d).fits q := by
  unfold Board.tryTake
  try dsimp only
  repeat' split
  all_goals first | exact h | simp (maxDischargeDepth := 40) only [h, Board.takeFor_fits]

theorem Board.liveEnded_fits {b : Board} {q : DriveNo → Profile} (h : b.fits q) (d : DriveNo) :
    (b.liveEnded d).fits q := by
  unfold Board.liveEnded
  try dsimp only
  repeat' split
  all_goals first | exact h | simp (maxDischargeDepth := 40) only [h, Board.applyPending_fits,
      Board.goIdle_fits, Board.takeFor_fits]

theorem Board.abandonPosition_fits {b : Board} {q : DriveNo → Profile} (h : b.fits q) (d : DriveNo) :
    (b.abandonPosition d).fits q := by
  unfold Board.abandonPosition
  try dsimp only
  repeat' split
  all_goals first | exact h | simp (maxDischargeDepth := 40) only [h, Board.enginePosEnd_fits,
      Board.decide_fits]

theorem Board.freeBuf_fits {b : Board} {q : DriveNo → Profile} (h : b.fits q) (d : DriveNo) (i : Fin 2) :
    (b.freeBuf d i).fits q := by
  unfold Board.freeBuf
  try dsimp only
  all_goals first | exact h | simp (maxDischargeDepth := 40) only [h, Board.modRc_fits]

theorem Board.beginHunt_fits {b : Board} {q : DriveNo → Profile} (h : b.fits q) (d : DriveNo) (k : Nat)
    (cap : Option CaptureFor) :
    (b.beginHunt d k cap).fits q := by
  unfold Board.beginHunt
  try dsimp only
  repeat' split
  all_goals first | exact h | simp (maxDischargeDepth := 40) only [h, Board.modRc_fits, Board.dropAside_fits]

theorem Board.openLive_fits {b : Board} {q : DriveNo → Profile} (h : b.fits q) (d : DriveNo) (k : Nat) :
    (b.openLive d k).fits q := by
  unfold Board.openLive
  try dsimp only
  repeat' split
  all_goals first | exact h | simp (maxDischargeDepth := 40) only [h, Board.modRc_fits, Board.beginHunt_fits]

theorem Board.openPass_fits {b : Board} {q : DriveNo → Profile} (h : b.fits q) (d : DriveNo) (k : Nat) :
    (b.openPass d k).fits q := by
  unfold Board.openPass
  try dsimp only
  repeat' split
  all_goals first | exact h | simp (maxDischargeDepth := 40) only [h, Board.modRc_fits, Board.beginHunt_fits]

theorem Board.withdraw_fits {b : Board} {q : DriveNo → Profile} (h : b.fits q) (d : DriveNo) :
    (b.withdraw d).fits q := by
  unfold Board.withdraw
  exact Board.modRc_fits (fits_foldl _ (fun b c hb => Board.dropAside_fits hb c) h) d _

theorem Board.writeCapture_fits {b : Board} {q : DriveNo → Profile} (h : b.fits q) (d : DriveNo)
    (i : Fin 2) (slot : Nat) :
    (b.writeCapture d i slot).fits q := by
  unfold Board.writeCapture
  try dsimp only
  all_goals first | exact h | simp (maxDischargeDepth := 40) only [h, Board.modRc_fits, Board.request_fits]

theorem Board.handSalvage_fits {b : Board} {q : DriveNo → Profile} (h : b.fits q) (d : DriveNo) (i : Fin 2) :
    (b.handSalvage d i).fits q := by
  unfold Board.handSalvage
  try dsimp only
  repeat' split
  all_goals first | exact h | simp (maxDischargeDepth := 40) only [h, Board.freeBuf_fits,
      Board.dropAside_fits, Board.writeCapture_fits, Board.modJob_fits]

theorem Board.handPrepare_fits {b : Board} {q : DriveNo → Profile} (h : b.fits q) (d : DriveNo) (i : Fin 2) :
    (b.handPrepare d i).fits q := by
  unfold Board.handPrepare
  try dsimp only
  repeat' split
  all_goals first | exact h | simp (maxDischargeDepth := 40) only [h, Board.modJob_fits,
      Board.writeCapture_fits, Board.dropAside_fits, Board.freeBuf_fits]

theorem Board.liveReport_fits {b : Board} {q : DriveNo → Profile} (h : b.fits q) (d : DriveNo)
    (image : Bool) :
    (b.liveReport d image).fits q := by
  unfold Board.liveReport
  try dsimp only
  repeat' split
  all_goals first | exact h | simp (maxDischargeDepth := 40) only [h, Board.report_fits, Board.note_fits,
      Board.dropAside_fits, Board.freeBuf_fits, Board.handSalvage_fits]

theorem Board.passReport_fits {b : Board} {q : DriveNo → Profile} (h : b.fits q) (d : DriveNo)
    (x : PassSetup) (image : Bool) :
    (b.passReport d x image).fits q := by
  unfold Board.passReport
  try dsimp only
  repeat' split
  all_goals first | exact h | simp (maxDischargeDepth := 40) only [h, Board.modJob_fits,
      Board.modDa_fits, Board.handPrepare_fits, Board.handSalvage_fits]

theorem Board.fillReport_fits {b : Board} {q : DriveNo → Profile} (h : b.fits q) (d : DriveNo)
    (tag : PassTag) (passNo : Nat) :
    (b.fillReport d tag passNo).fits q := by
  unfold Board.fillReport
  try dsimp only
  all_goals first | exact h | simp (maxDischargeDepth := 40) only [h, Board.modRc_fits]

theorem Board.loseBuffer_fits {b : Board} {q : DriveNo → Profile} (h : b.fits q) (d : DriveNo) :
    (b.loseBuffer d).fits q := by
  unfold Board.loseBuffer
  try dsimp only
  repeat' split
  all_goals first | exact h | simp (maxDischargeDepth := 40) only [h, Board.dropAside_fits,
      Board.freeBuf_fits]

theorem Board.idleSlot_fits {b : Board} {q : DriveNo → Profile} (h : b.fits q) (d : DriveNo) :
    (b.idleSlot d).fits q := by
  unfold Board.idleSlot
  try dsimp only
  all_goals first | exact h | simp (maxDischargeDepth := 40) only [h, Board.modRc_fits]

theorem Board.reportSlot_fits {b : Board} {q : DriveNo → Profile} (h : b.fits q) (d : DriveNo) :
    (b.reportSlot d).fits q := by
  unfold Board.reportSlot
  try dsimp only
  repeat' split
  all_goals first | exact h | simp (maxDischargeDepth := 40) only [h, Board.loseBuffer_fits,
      Board.idleSlot_fits, Board.fillReport_fits, Board.liveReport_fits, Board.withdraw_fits,
          Board.passReport_fits]

theorem Board.stopChannel_fits {b : Board} {q : DriveNo → Profile} (h : b.fits q) (d : DriveNo) :
    (b.stopChannel d).fits q := by
  unfold Board.stopChannel
  try dsimp only
  repeat' split
  all_goals first | exact h | simp (maxDischargeDepth := 40) only [h, Board.reportSlot_fits,
      Board.loseBuffer_fits, Board.idleSlot_fits, Board.withdraw_fits]

theorem Board.endPass_fits {b : Board} {q : DriveNo → Profile} (h : b.fits q) (d : DriveNo) (full : Bool) :
    (b.endPass d full).fits q := by
  unfold Board.endPass
  try dsimp only
  repeat' split
  all_goals first | exact h | simp (maxDischargeDepth := 40) only [h, Board.withdraw_fits,
      Board.dropWriteFill_fits, Board.reportSurvey_fits, Board.examine_fits, Board.modDa_fits,
      Board.enginePassEnd_fits]

theorem Board.passEnd_fits {b : Board} {q : DriveNo → Profile} (h : b.fits q) (d : DriveNo) (full : Bool) :
    (b.passEnd d full).fits q := by
  unfold Board.passEnd
  try dsimp only
  all_goals first | exact h | simp (maxDischargeDepth := 40) only [h, Board.endPass_fits, Board.decide_fits]

theorem Board.passStop_fits {b : Board} {q : DriveNo → Profile} (h : b.fits q) (d : DriveNo) :
    (b.passStop d).fits q := by
  unfold Board.passStop
  try dsimp only
  all_goals first | exact h | simp (maxDischargeDepth := 40) only [h, Board.endPass_fits,
      Board.applyPending_fits, Board.restore_fits]

theorem Board.deliver_fits {b : Board} {q : DriveNo → Profile} (h : b.fits q) (f : Flight) (j : Job)
    (r : SalvageSector) (o : SolveEnd) (written : Bool) :
    (b.deliver f j r o written).fits q := by
  unfold Board.deliver
  try dsimp only
  repeat' split
  all_goals first | exact h | simp (maxDischargeDepth := 40) only [h, Board.modJob_fits, Board.note_fits,
      Board.enterResult_fits]

theorem Board.closeSolve_fits {b : Board} {q : DriveNo → Profile} (h : b.fits q) (f : Flight) :
    (b.closeSolve f).fits q := by
  unfold Board.closeSolve
  try dsimp only
  repeat' split
  all_goals first | exact h | simp (maxDischargeDepth := 40) only [h, Board.endSolve_fits,
      Board.joinQueue_fits, Board.completeCheck_fits, Board.settleCheck_fits]

theorem Board.endWith_fits {b : Board} {q : DriveNo → Profile} (h : b.fits q) (f : Flight) (o : SolveEnd) :
    (b.endWith f o).fits q := by
  unfold Board.endWith
  try dsimp only
  repeat' split
  all_goals first | exact h | simp (maxDischargeDepth := 40) only [h, Board.deliver_fits,
      Board.closeSolve_fits]

theorem Board.snapshotCheck_fits {b : Board} {q : DriveNo → Profile} (h : b.fits q)  :
    (b.snapshotCheck).fits q := by
  unfold Board.snapshotCheck
  try dsimp only
  repeat' split
  all_goals first | exact h | simp (maxDischargeDepth := 40) only [h, Board.closeSolve_fits,
      Board.endWith_fits]

theorem Board.solveStart_fits {b : Board} {q : DriveNo → Profile} (h : b.fits q) : b.solveStart.fits q := by
  unfold Board.solveStart
  repeat' split
  all_goals try exact h
  dsimp only
  refine Board.snapshotCheck_fits (fits_foldl _ (fun b m hb => Board.request_fits hb _ _ _) ?_)
  exact Board.modJob_fits h _ _

theorem Board.leaveSnapshot_fits {b : Board} {q : DriveNo → Profile} (h : b.fits q) (slot : Nat) :
    (b.leaveSnapshot slot).fits q := by
  unfold Board.leaveSnapshot
  try dsimp only
  repeat' split
  all_goals first | exact h | simp (maxDischargeDepth := 40) only [h, Board.dropOps_fits,
      Board.snapshotCheck_fits, Board.fits_mkSu]

theorem Board.snapshotRead_fits {b : Board} {q : DriveNo → Profile} (h : b.fits q) (slot : Nat) :
    (b.snapshotRead slot).fits q := by
  unfold Board.snapshotRead
  try dsimp only
  repeat' split
  all_goals first | exact h | simp (maxDischargeDepth := 40) only [h, Board.dropOps_fits,
      Board.snapshotCheck_fits, Board.fits_mkSu]

theorem Board.logError_fits {b : Board} {q : DriveNo → Profile} (h : b.fits q) (e : LogEntry) :
    (b.logError e).fits q := by
  have hl : b.sk.log.length ≤ 16 := h.1.2.2.2.2.2.2.2.2.2
  have hd : ∀ l : List LogEntry, l.any (fun x => x.kind = .single) = true →
      (dropFirst (fun x : LogEntry => x.kind = .single) l).length + 1 = l.length := by
    intro l
    induction l with
    | nil => simp
    | cons x xs ih =>
      intro ha
      unfold dropFirst
      split
      · rfl
      · rename_i hx
        simp only [List.any_cons, hx, Bool.false_or] at ha
        simp [ih ha]
  refine Board.fits_mkSk h _ _ _ _ _ _ _ _ _ _ h.1.2.2.2.2.2.2.2.2.1 ?_
  unfold logInsert
  split
  · simp; omega
  · split
    · rename_i ha
      have := hd _ ha
      simp only [List.length_append, List.length_singleton]; omega
    · split
      · exact hl
      · simp; omega

theorem Board.disown_fits {b : Board} {q : DriveNo → Profile} (h : b.fits q) (serial slot : Nat) :
    (b.disown serial slot).fits q := fits_foldl _ (fun _ d hb => Board.modRc_fits hb d _) h

theorem Board.treat_fits {b : Board} {q : DriveNo → Profile} (h : b.fits q) (slot : Nat) (r : Role) :
    (b.treat slot r).fits q := by
  cases r with
  | entry e => exact Board.report_fits (Board.damageEntry_fits h _) _ _ _
  | best s k => exact Board.modJob_fits h _ _
  | capture s k => exact Board.leaveSnapshot_fits (Board.freePool_fits (Board.modJob_fits h _ _) _) _
  | image s k => exact Board.freePool_fits (Board.disown_fits (Board.modJob_fits h _ _) _ _) _
  | other => exact h

theorem Board.treatSpoiled_fits {b : Board} {q : DriveNo → Profile} (h : b.fits q) (op : StoreOp) :
    (b.treatSpoiled op).fits q := by
  unfold Board.treatSpoiled
  split
  · exact Board.treat_fits h _ _
  · exact h

theorem Board.fillFailed_fits {b : Board} {q : DriveNo → Profile} (h : b.fits q) (d : DriveNo) :
    (b.fillFailed d).fits q := by
  unfold Board.fillFailed
  try dsimp only
  repeat' split
  all_goals first | exact h | simp (maxDischargeDepth := 40) only [h, Board.voidBuffer_fits,
      Board.makeRelay_fits]

theorem Board.fillDone_fits {b : Board} {q : DriveNo → Profile} (h : b.fits q) (d : DriveNo) :
    (b.fillDone d).fits q := by
  unfold Board.fillDone
  try dsimp only
  repeat' split
  all_goals first | exact h | simp (maxDischargeDepth := 40) only [h, Board.abandonFill_fits,
      Board.modLp_fits, Board.damageEntry_fits, Board.report_fits, Board.fillFailed_fits]

theorem Board.salvageCapture_fits {b : Board} {q : DriveNo → Profile} (h : b.fits q) (j : Job) (k : Nat)
    (op : StoreOp) (c : Capture) :
    (b.salvageCapture j k op c).fits q := by
  unfold Board.salvageCapture
  try dsimp only
  repeat' split
  all_goals first | exact h | simp (maxDischargeDepth := 40) only [h, Board.settleCheck_fits,
      Board.modJob_fits, Board.treatSpoiled_fits, Board.joinQueue_fits]

theorem Board.prepareCapture_fits {b : Board} {q : DriveNo → Profile} (h : b.fits q) (j : Job) (k : Nat)
    (op : StoreOp) (c : Capture) :
    (b.prepareCapture j k op c).fits q := by
  unfold Board.prepareCapture
  try dsimp only
  repeat' split
  all_goals first | exact h | simp (maxDischargeDepth := 40) only [h, Board.modJob_fits,
      Board.treatSpoiled_fits, Board.startWriteFill_fits]

theorem Board.captureDone_fits {b : Board} {q : DriveNo → Profile} (h : b.fits q) (d : DriveNo) (i : Fin 2) :
    (b.captureDone d i).fits q := by
  unfold Board.captureDone
  try dsimp only
  repeat' split
  all_goals first | exact h | simp (maxDischargeDepth := 40) only [h, Board.dropOps_fits,
      Board.freeBuf_fits, Board.freePool_fits, Board.prepareCapture_fits, Board.salvageCapture_fits]

theorem Board.commitEntry_fits {b : Board} {q : DriveNo → Profile} (h : b.fits q) (d : DriveNo)
    (dv : Diversion) : (b.commitEntry d dv).fits q := by
  unfold Board.commitEntry
  simp (maxDischargeDepth := 40) only [h, Board.dropOps_fits, Board.modLp_fits, Board.createEntry_fits]

theorem Board.commitReset_fits {b : Board} {q : DriveNo → Profile} (h : b.fits q) (d : DriveNo) :
    (b.commitReset d).fits q := by
  unfold Board.commitReset
  split
  · exact Board.treatSpoiled_fits (Board.commitEntry_fits h d _) _
  · exact h

theorem Board.commitDone_fits {b : Board} {q : DriveNo → Profile} (h : b.fits q) (d : DriveNo) :
    (b.commitDone d).fits q := by
  unfold Board.commitDone
  try dsimp only
  repeat' split
  all_goals first | exact h | simp (maxDischargeDepth := 40) only [h, Board.commitEntry_fits, Board.modLp_fits,
      Board.handOn_fits, Board.treatSpoiled_fits, Board.examine_fits, Board.liveEnded_fits]

theorem Board.deliveryDone_fits {b : Board} {q : DriveNo → Profile} (h : b.fits q)  :
    (b.deliveryDone).fits q := by
  unfold Board.deliveryDone
  try dsimp only
  repeat' split
  all_goals first | exact h | simp (maxDischargeDepth := 40) only [h, Board.dropOps_fits,
      Board.closeSolve_fits, Board.deliver_fits, Board.examine_fits, Board.treatSpoiled_fits]

theorem Board.writeFillDone_fits {b : Board} {q : DriveNo → Profile} (h : b.fits q) (d : DriveNo) :
    (b.writeFillDone d).fits q := by
  unfold Board.writeFillDone
  try dsimp only
  repeat' split
  all_goals first | exact h | simp (maxDischargeDepth := 40) only [h, Board.dropOps_fits, Board.modDa_fits]

theorem Board.copyDone_fits {b : Board} {q : DriveNo → Profile} (h : b.fits q) (slot : Nat) :
    (b.copyDone slot).fits q := by
  unfold Board.copyDone
  try dsimp only
  repeat' split
  all_goals first | exact h | simp (maxDischargeDepth := 40) only [h, Board.dropOps_fits,
      Board.freePool_fits, Board.treatSpoiled_fits]

theorem Board.fetchSectorDone_fits {b : Board} {q : DriveNo → Profile} (h : b.fits q)  :
    (b.fetchSectorDone).fits q := by
  unfold Board.fetchSectorDone
  try dsimp only
  repeat' split
  all_goals exact h

theorem Board.fetchCaptureDone_fits {b : Board} {q : DriveNo → Profile} (h : b.fits q)  :
    (b.fetchCaptureDone).fits q := by
  unfold Board.fetchCaptureDone
  try dsimp only
  repeat' split
  all_goals exact h

theorem Board.storeSectorDone_fits {b : Board} {q : DriveNo → Profile} (h : b.fits q)  :
    (b.storeSectorDone).fits q := by
  unfold Board.storeSectorDone
  try dsimp only
  repeat' split
  all_goals first | exact h | simp (maxDischargeDepth := 40) only [h, Board.dropOps_fits, Board.letGo_fits,
      Board.deny_fits, Board.createEntry_fits, Board.reply_fits, Board.handOn_fits, Board.treatSpoiled_fits]

theorem Board.patchDone_fits {b : Board} {q : DriveNo → Profile} (h : b.fits q)  :
    (b.patchDone).fits q := by
  unfold Board.patchDone
  try dsimp only
  repeat' split
  all_goals first | exact h | simp (maxDischargeDepth := 40) only [h, Board.dropOps_fits,
      Board.modEntry_fits, Board.entryChanged_fits, Board.reply_fits, Board.handOn_fits,
          Board.treatSpoiled_fits]

theorem Board.modOpAt_fits {b : Board} {q : DriveNo → Profile} (h : b.fits q) (n : Nat)
    (f : StoreOp → StoreOp) :
    (b.modOpAt n f).fits q := by
  refine Board.fits_of h ?_ ?_ ?_ ?_ ?_ ?_ ?_ ?_ <;> simp [Board.modOpAt]

theorem Board.afterReads_fits {b : Board} {q : DriveNo → Profile} (h : b.fits q) (n : Nat) (op : StoreOp) :
    (b.afterReads n op).fits q := by
  unfold Board.afterReads
  try dsimp only
  repeat' split
  all_goals exact h

theorem Board.readerDouble_fits {b : Board} {q : DriveNo → Profile} (h : b.fits q) (op : StoreOp) :
    (b.readerDouble op).fits q := by
  unfold Board.readerDouble
  dsimp only
  repeat' split
  all_goals first
    | exact h
    | exact Board.fillFailed_fits h _
    | exact Board.fatalWrite_fits (Board.dropOps_fits h _) _ _
    | exact Board.dropOps_fits h _
    | exact Board.leaveSnapshot_fits h _
    | exact Board.treat_fits (Board.fits_mk h _ _ _ _ _ _ _ _ _ _) _ _

theorem Board.readAccess_fits {b : Board} {q : DriveNo → Profile} (h : b.fits q) (n : Nat) (op : StoreOp)
    (slot cell : Nat) (c : CellRead) : (b.readAccess n op slot cell c).fits q := by
  have ht : ∀ f, (b.modOpAt n f).fits q := fun f => Board.modOpAt_fits h n f
  unfold Board.readAccess
  dsimp only
  repeat' split
  · exact Board.afterReads_fits (ht _) _ _
  · exact ht _
  · exact Board.logError_fits (Board.afterReads_fits (ht _) _ _) _
  · exact Board.logError_fits (ht _) _
  · exact Board.readerDouble_fits (Board.treat_fits (Board.note_fits (Board.logError_fits (ht _) _) _ _) _ _) _

theorem grantOp_fits {b b' : Board} {m m' : Dram} {q : DriveNo → Profile}
    (h : b.fits q) {n : Nat} {op : StoreOp}
    {w : CellBits} (hg : grantOp b m n op w = .ok (b', m')) : b'.fits q := by
  unfold grantOp at hg
  dsimp only at hg
  repeat' split at hg
  all_goals simp only [Except.ok.injEq, Prod.mk.injEq, reduceCtorEq] at hg
  all_goals obtain ⟨rfl, -⟩ := hg
  · exact Board.deny_fits (Board.dropOps_fits h _) _
  · exact h
  · exact Board.readAccess_fits h _ _ _ _ _
  · exact Board.fits_mk (Board.modOpAt_fits h n fun op =>
      { op with todo := op.todo.drop 1, wrote := op.wrote ++ [_], lastAt := b.now }) _ _ _ _ _ _ _ _ _ _
  · exact Board.modOpAt_fits h _ _

theorem grantAccess_fits {b b' : Board} {m m' : Dram} {q : DriveNo → Profile} (h : b.fits q) {g : Grantee}
    {w : CellBits} (hg : grantAccess b m g w = .ok (b', m')) : b'.fits q := by
  unfold grantAccess at hg
  split at hg
  · exact grantOp_fits h hg
  · simp only [Except.ok.injEq, Prod.mk.injEq] at hg
    obtain ⟨rfl, -⟩ := hg
    exact h

theorem drainOp_fits {q : DriveNo → Profile} (kind : OpKind) (n : Nat) {b : Board} (m : Dram) (h : b.fits q) :
    (drainOp kind n b m).1.fits q := by
  induction n generalizing b m with
  | zero => exact h
  | succ n ih =>
    unfold drainOp
    split
    · split
      · rename_i hg; exact ih _ (grantOp_fits h hg)
      · exact h
    · exact h

theorem Board.storeReady_fits {b : Board} {q : DriveNo → Profile} (h : b.fits q)  :
    (b.storeReady).fits q := by
  unfold Board.storeReady
  try dsimp only
  repeat' split
  all_goals exact h

theorem Board.refreshTick_fits {b : Board} {q : DriveNo → Profile} (h : b.fits q) : b.refreshTick.fits q := by
  unfold Board.refreshTick
  split
  · exact Board.fits_mkSk h _ _ _ _ _ _ _ _ _ _ (by simp [Upkeep.addBurst]) h.1.2.2.2.2.2.2.2.2.2
  · exact h

theorem Board.scrubTick_fits {b : Board} {q : DriveNo → Profile} (h : b.fits q) : b.scrubTick.fits q := by
  unfold Board.scrubTick
  dsimp only
  repeat' split
  · exact Board.fits_mkSk h _ _ _ _ _ _ _ _ _ _ (by simp [Upkeep.addBurst]) h.1.2.2.2.2.2.2.2.2.2
  · exact Board.fits_mkSk h _ _ _ _ _ _ _ _ _ _ h.1.2.2.2.2.2.2.2.2.1 h.1.2.2.2.2.2.2.2.2.2
  · exact h

theorem Board.refreshBurst_fits {b : Board} {q : DriveNo → Profile}
    (h : b.fits q) : b.refreshBurst.fits q := by
  have hp : b.sk.pending ≤ 15 := h.1.2.2.2.2.2.2.2.2.1
  unfold Board.refreshBurst
  split
  · exact Board.fits_mkSk h _ _ _ _ _ _ _ _ _ _ (by simp; omega) h.1.2.2.2.2.2.2.2.2.2
  · exact h

theorem Board.scrubNextCell_fits {b : Board} {q : DriveNo → Profile}
    (h : b.fits q) : b.scrubNextCell.fits q := h

theorem Board.scrubDouble_fits {b : Board} {q : DriveNo → Profile} (h : b.fits q) (slot cell syn : Nat) :
    (b.scrubDouble slot cell syn).fits q := by
  unfold Board.scrubDouble
  dsimp only
  exact Board.treat_fits (Board.fits_mk (Board.note_fits (Board.logError_fits h _) _ _) _ _ _ _ _ _ _ _ _ _) _ _

theorem scrubCell_fits {b b' : Board} {m m' : Dram} {q : DriveNo → Profile} (h : b.fits q) {w : CellBits}
    (hg : scrubCell b m w = .ok (b', m')) : b'.fits q := by
  unfold scrubCell at hg
  dsimp only at hg
  repeat' split at hg
  · cases hg; exact h
  · cases hg
  · cases hg; exact Board.scrubNextCell_fits h
  · simp only [Except.ok.injEq, Prod.mk.injEq] at hg
    rw [← hg.1]; exact Board.scrubNextCell_fits (Board.logError_fits h _)
  · simp only [Except.ok.injEq, Prod.mk.injEq] at hg
    rw [← hg.1]; exact Board.scrubNextCell_fits (Board.scrubDouble_fits h _ _ _)

theorem Board.preempt_fits {b : Board} {q : DriveNo → Profile} (h : b.fits q) (d : DriveNo) :
    (b.preempt d).fits q := by
  unfold Board.preempt
  try dsimp only
  repeat' split
  all_goals first | exact h | simp (maxDischargeDepth := 40) only [h, Board.modDa_fits]

theorem Board.latch_fits {b : Board} {q : DriveNo → Profile} (h : b.fits q) (d : DriveNo) (c : CtrlCmd) :
    (b.latch d c).fits q := by
  unfold Board.latch
  try dsimp only
  all_goals first | exact h | simp (maxDischargeDepth := 40) only [h, Board.modLp_fits, Board.modDa_fits,
      Board.preempt_fits]

theorem Board.arrive_fits {b : Board} {q : DriveNo → Profile} (h : b.fits q) (d : DriveNo) (c : CtrlCmd) :
    (b.arrive d c).fits q := by
  unfold Board.arrive
  try dsimp only
  repeat' split
  all_goals first | exact h | simp (maxDischargeDepth := 40) only [h, Board.modLp_fits,
      Board.startCommand_fits, Board.latch_fits]

theorem Board.gateDrop_fits {b : Board} {q : DriveNo → Profile} (h : b.fits q) (d : DriveNo) :
    (b.gateDrop d).fits q := by
  unfold Board.gateDrop
  dsimp only
  repeat' split
  · exact Board.examine_fits
      (Board.afterGate_fits (Board.examine_fits (Board.releaseEntry_fits (Board.modLp_fits h d _) _)) d)
  · exact Board.examine_fits (Board.afterGate_fits (Board.modLp_fits h d _) d)
  · exact h

theorem Board.abandonDiversion_fits {b : Board} {q : DriveNo → Profile} (h : b.fits q) (d : DriveNo) :
    (b.abandonDiversion d).fits q := by
  unfold Board.abandonDiversion
  try dsimp only
  repeat' split
  all_goals first | exact h | simp (maxDischargeDepth := 40) only [h, Board.modLp_fits, Board.letGo_fits,
      Board.examine_fits]

theorem Board.gateRaise_fits {b : Board} {q : DriveNo → Profile} (h : b.fits q) (d : DriveNo) :
    (b.gateRaise d).fits q := by
  unfold Board.gateRaise
  try dsimp only
  repeat' split
  all_goals first | exact h | simp (maxDischargeDepth := 40) only [h, Board.modPins_fits, Board.modLp_fits,
      Board.releaseEntry_fits]

theorem Board.gateFall_fits {b : Board} {q : DriveNo → Profile} (h : b.fits q) (d : DriveNo) :
    (b.gateFall d).fits q := by
  unfold Board.gateFall
  try dsimp only
  repeat' split
  all_goals first | exact h | simp (maxDischargeDepth := 40) only [h, Board.modPins_fits,
      Board.gateDrop_fits, Board.abandonDiversion_fits]

theorem Board.absorb_fits {b : Board} {q : DriveNo → Profile} (h : b.fits q) (d : DriveNo)
    (data : List Word) (check : Word) :
    (b.absorb d data check).fits q := by
  unfold Board.absorb
  try dsimp only
  repeat' split
  all_goals first | exact h | simp (maxDischargeDepth := 40) only [h, Board.note_fits, Board.modLp_fits,
      Board.request_fits]

theorem Board.emissionOver_fits {b : Board} {q : DriveNo → Profile} (h : b.fits q) (d : DriveNo) :
    (b.emissionOver d).fits q := by
  unfold Board.emissionOver
  try dsimp only
  repeat' split
  all_goals first | exact h | simp (maxDischargeDepth := 40) only [h, Board.modLp_fits, Board.voidBuffer_fits]

theorem Board.slotTimeout_fits {b : Board} {q : DriveNo → Profile} (h : b.fits q) (d : DriveNo) :
    (b.slotTimeout d).fits q := by
  unfold Board.slotTimeout
  try dsimp only
  repeat' split
  all_goals first | exact h | simp (maxDischargeDepth := 40) only [h, Board.withdraw_fits, Board.modLp_fits,
      Board.liveEnded_fits]

theorem Board.breakOff_fits {b : Board} {q : DriveNo → Profile} (h : b.fits q) (d : DriveNo) :
    (b.breakOff d).fits q := by
  unfold Board.breakOff
  try dsimp only
  repeat' split
  all_goals first | exact h | simp (maxDischargeDepth := 40) only [h, Board.stopChannel_fits,
      Board.gateDrop_fits, Board.abandonDiversion_fits, Board.emissionOver_fits, Board.modLp_fits]

theorem Board.clearBuffer_fits {b : Board} {q : DriveNo → Profile} (h : b.fits q) (d : DriveNo) :
    (b.clearBuffer d).fits q := by
  unfold Board.clearBuffer
  try dsimp only
  repeat' split
  all_goals first | exact h | simp (maxDischargeDepth := 40) only [h, Board.modLp_fits, Board.voidBuffer_fits]

theorem Board.busClearDrive_fits {b : Board} {q : DriveNo → Profile} (h : b.fits q) (d : DriveNo) :
    (b.busClearDrive d).fits q := by
  unfold Board.busClearDrive
  try dsimp only
  repeat' split
  all_goals first | exact h | simp (maxDischargeDepth := 40) only [h, Board.breakOff_fits,
      Board.clearBuffer_fits, Board.modLp_fits, Board.clearHold_fits, Board.liveEnded_fits]

theorem Board.busClear_fits {b : Board} {q : DriveNo → Profile} (h : b.fits q) : b.busClear.fits q :=
  fits_foldl _ (fun _ d hb => Board.busClearDrive_fits hb d) h

theorem Board.headsAt_fits {b : Board} {q : DriveNo → Profile} (h : b.fits q) (d : DriveNo) (c : Fin 512) :
    (b.headsAt d c).fits q := by
  unfold Board.headsAt
  try dsimp only
  all_goals first | exact h | simp (maxDischargeDepth := 40) only [h, Board.modDa_fits]

theorem Board.headsLost_fits {b : Board} {q : DriveNo → Profile} (h : b.fits q) (d : DriveNo) :
    (b.headsLost d).fits q := by
  unfold Board.headsLost
  try dsimp only
  all_goals first | exact h | simp (maxDischargeDepth := 40) only [h, Board.modDa_fits]

theorem Board.liveSeekEnd_fits {b : Board} {q : DriveNo → Profile} (h : b.fits q) (d : DriveNo) (ok : Bool) :
    (b.liveSeekEnd d ok).fits q := by
  unfold Board.liveSeekEnd
  try dsimp only
  repeat' split
  all_goals first | exact h | simp (maxDischargeDepth := 40) only [h, Board.headsAt_fits,
      Board.headsLost_fits, Board.modLp_fits, Board.liveEnded_fits]

theorem Board.thenStep_fits {b : Board} {q : DriveNo → Profile} (h : b.fits q)
    (d : DriveNo) {next : Board → Board}
    (hn : (next b).fits q) : (b.thenStep d next).fits q := by
  unfold Board.thenStep
  split
  · exact Board.abandonPosition_fits h d
  · exact hn

theorem Board.sendRecal_fits {b : Board} {q : DriveNo → Profile} (h : b.fits q) (d : DriveNo) (w : Work) :
    (b.sendRecal d w).fits q := by
  unfold Board.sendRecal
  try dsimp only
  all_goals first | exact h | simp (maxDischargeDepth := 40) only [h, Board.sendMove_fits, Board.modDa_fits]

theorem Board.seekFailure_fits {b : Board} {q : DriveNo → Profile} (h : b.fits q) (d : DriveNo)
    (offsetFault : Bool) :
    (b.seekFailure d offsetFault).fits q := by
  unfold Board.seekFailure
  try dsimp only
  repeat' split
  all_goals first | exact h | simp (maxDischargeDepth := 40) only [h, Board.headsLost_fits,
      Board.abandonPosition_fits, Board.modJob_fits, Board.modDa_fits, Board.finish_fits, Board.decide_fits,
          Board.sendRecal_fits]

theorem Board.restoreMoveFailed_fits {b : Board} {q : DriveNo → Profile} (h : b.fits q) (d : DriveNo) :
    (b.restoreMoveFailed d).fits q := by
  unfold Board.restoreMoveFailed
  try dsimp only
  repeat' split
  all_goals first | exact h | simp (maxDischargeDepth := 40) only [h, Board.headsLost_fits,
      Board.sendRecal_fits, Board.restoreFail_fits]

theorem Board.offsetSettled_fits {b : Board} {q : DriveNo → Profile} (h : b.fits q) (d : DriveNo) :
    (b.offsetSettled d).fits q := by
  unfold Board.offsetSettled
  try dsimp only
  repeat' split
  all_goals first | exact h | simp (maxDischargeDepth := 40) only [h, Board.modRc_fits, Board.thenStep_fits,
      Board.posRecal_fits, Board.posComplete_fits, Board.restoreSeek_fits]

theorem Board.offsetFault_fits {b : Board} {q : DriveNo → Profile} (h : b.fits q) (d : DriveNo) :
    (b.offsetFault d).fits q := by
  unfold Board.offsetFault
  try dsimp only
  repeat' split
  all_goals first | exact h | simp (maxDischargeDepth := 40) only [h, Board.seekFailure_fits,
      Board.restoreSeek_fits]

theorem Board.onCylinder_fits {b : Board} {q : DriveNo → Profile} (h : b.fits q) (d : DriveNo) :
    (b.onCylinder d).fits q := by
  unfold Board.onCylinder
  try dsimp only
  repeat' split
  all_goals first | exact h | simp (maxDischargeDepth := 40) only [h, Board.modPins_fits,
      Board.liveSeekEnd_fits, Board.headsAt_fits, Board.thenStep_fits, Board.posSeek_fits,
          Board.posHead_fits, Board.restoreHead_fits, Board.modDa_fits, Board.sendRestoreSeek_fits,
              Board.restoreSteps_fits, Board.offsetSettled_fits]

theorem Board.seekError_fits {b : Board} {q : DriveNo → Profile} (h : b.fits q) (d : DriveNo) :
    (b.seekError d).fits q := by
  unfold Board.seekError
  try dsimp only
  repeat' split
  all_goals first | exact h | simp (maxDischargeDepth := 40) only [h, Board.modPins_fits,
      Board.liveSeekEnd_fits, Board.seekFailure_fits, Board.restoreMoveFailed_fits, Board.modDa_fits,
          Board.restoreSteps_fits, Board.offsetFault_fits]

theorem Board.settleTimer_fits {b : Board} {q : DriveNo → Profile} (h : b.fits q) (d : DriveNo)
    (onCyl : Bool) :
    (b.settleTimer d onCyl).fits q := by
  unfold Board.settleTimer
  try dsimp only
  repeat' split
  all_goals first | exact h | simp (maxDischargeDepth := 40) only [h, Board.modPins_fits,
      Board.offsetSettled_fits]

theorem Board.faultTimer_fits {b : Board} {q : DriveNo → Profile} (h : b.fits q) (d : DriveNo) :
    (b.faultTimer d).fits q := by
  unfold Board.faultTimer
  try dsimp only
  repeat' split
  all_goals first | exact h | simp (maxDischargeDepth := 40) only [h, Board.offsetFault_fits]

theorem Board.engineSeekTimer_fits {b : Board} {q : DriveNo → Profile} (h : b.fits q) (d : DriveNo) :
    (b.engineSeekTimer d).fits q := by
  unfold Board.engineSeekTimer
  try dsimp only
  repeat' split
  all_goals first | exact h | simp (maxDischargeDepth := 40) only [h, Board.seekFailure_fits]

theorem Board.restoreTimer_fits {b : Board} {q : DriveNo → Profile} (h : b.fits q) (d : DriveNo) :
    (b.restoreTimer d).fits q := by
  unfold Board.restoreTimer
  try dsimp only
  repeat' split
  all_goals first | exact h | simp (maxDischargeDepth := 40) only [h, Board.restoreMoveFailed_fits,
      Board.modDa_fits, Board.restoreSteps_fits]

theorem Board.liveOffline_fits {b : Board} {q : DriveNo → Profile} (h : b.fits q) (d : DriveNo) :
    (b.liveOffline d).fits q := by
  unfold Board.liveOffline
  try dsimp only
  repeat' split
  all_goals first | exact h | simp (maxDischargeDepth := 40) only [h, Board.breakOff_fits, Board.modLp_fits]

theorem Board.channelOffline_fits {b : Board} {q : DriveNo → Profile} (h : b.fits q) (d : DriveNo) :
    (b.channelOffline d).fits q := by
  unfold Board.channelOffline
  try dsimp only
  all_goals first | exact h | simp (maxDischargeDepth := 40) only [h, Board.stopChannel_fits,
      Board.modRc_fits]

theorem Board.engineOffline_fits {b : Board} {q : DriveNo → Profile} (h : b.fits q) (d : DriveNo) :
    (b.engineOffline d).fits q := by
  unfold Board.engineOffline
  try dsimp only
  repeat' split
  all_goals first | exact h | simp (maxDischargeDepth := 40) only [h, Board.enginePosEnd_fits,
      Board.endPass_fits]

theorem Board.goOffline_fits {b : Board} {q : DriveNo → Profile} (h : b.fits q) (d : DriveNo) :
    (b.goOffline d).fits q := by
  unfold Board.goOffline
  try dsimp only
  all_goals first | exact h | simp (maxDischargeDepth := 40) only [h, Board.applyPending_fits,
      Board.modDa_fits]

theorem Board.readyDrop_fits {b : Board} {q : DriveNo → Profile} (h : b.fits q) (d : DriveNo) :
    (b.readyDrop d).fits q := by
  unfold Board.readyDrop
  try dsimp only
  repeat' split
  all_goals first | exact h | simp (maxDischargeDepth := 40) only [h, Board.modPins_fits, Board.note_fits,
      Board.liveOffline_fits, Board.channelOffline_fits, Board.engineOffline_fits, Board.goOffline_fits]

theorem Board.readyRise_fits {b : Board} {q : DriveNo → Profile} (h : b.fits q) (d : DriveNo) :
    (b.readyRise d).fits q := by
  unfold Board.readyRise
  try dsimp only
  repeat' split
  all_goals first | exact h | simp (maxDischargeDepth := 40) only [h, Board.modPins_fits, Board.modDa_fits,
      Board.note_fits, Board.fits_mk]

theorem Board.driveLost_fits {b : Board} {q : DriveNo → Profile} (h : b.fits q) (d : DriveNo) :
    (b.driveLost d).fits q := by
  unfold Board.driveLost
  extract_lets da due
  split
  · exact fits_foldl _ (fun b s hb => Board.finish_fits hb s _) (Board.modDa_fits h d _)
  · exact h

theorem Board.fits.rt {b : Board} {q : DriveNo → Profile} (h : b.fits q) (d : DriveNo) :
    8 ≤ (q d).sectors ∧ (b.drv d).rt.position < (q d).sectors ∧ (b.drv d).rt.history.length ≤ 8 ∧
      (b.drv d).rt.inBand ≤ 8 := by
  rw [← h.2 d]
  obtain ⟨-, -, -, -, h5, -, -, -, h9⟩ := h.1.1 d
  exact ⟨h5, h9⟩

theorem Board.correctIndex_fits {b : Board} {q : DriveNo → Profile} (h : b.fits q) (d : DriveNo) :
    (b.correctIndex d).fits q := by
  obtain ⟨h1, h2, h3, h4⟩ := h.rt d
  have : (b.modRt d fun _ => ((b.drv d).rt.correct (b.drv d).profile.sectors).1).fits q := by
    refine Board.modRt_fits h d ?_ ?_ ?_ <;> unfold Tracker.correct <;> split <;> simp only [h.2 d] <;> omega
  unfold Board.correctIndex
  dsimp only
  split
  · exact Board.note_fits this _ _
  · exact this

theorem Board.indexLocked_fits {b : Board} {q : DriveNo → Profile} (h : b.fits q) (d : DriveNo) :
    (b.indexLocked d).fits q := by
  have h0 := Board.correctIndex_fits h d
  have h1 : ∀ p, ((b.correctIndex d).modRt d fun rt => rt.record p b.now).fits q := by
    intro p
    obtain ⟨h1, h2, h3, h4⟩ := h0.rt d
    refine Board.modRt_fits h0 d h2 ?_ h4
    unfold Tracker.record
    dsimp only
    split
    · simp only [List.length_drop, List.length_append, List.length_singleton]; omega
    · omega
  have h2 : ∀ (c : Board), c.fits q → ∀ pr p, (c.modRt d fun _ => ((c.drv d).rt.judge pr p).1).fits q := by
    intro c hc pr p
    obtain ⟨g1, g2, g3, g4⟩ := hc.rt d
    refine Board.modRt_fits hc d ?_ ?_ ?_
    all_goals
      unfold Tracker.judge
      dsimp only
      (repeat' split) <;> first | exact g2 | exact g3 | exact Nat.min_le_left _ _ | exact Nat.zero_le _
  unfold Board.indexLocked
  dsimp only
  split
  · exact Board.enterTaking_fits (Board.note_fits (h2 _ (h1 _) _ _) _ _) d
  · exact h2 _ (h1 _) _ _

theorem Board.indexFreeRun_fits {b : Board} {q : DriveNo → Profile} (h : b.fits q) (d : DriveNo) :
    (b.indexFreeRun d).fits q := by
  have h0 := Board.correctIndex_fits h d
  unfold Board.indexFreeRun
  exact Board.note_fits (Board.modRt_fits h0 d (h0.rt d).2.1 (by simp) (by simp)) _ _

theorem Board.indexPulse_fits {b : Board} {q : DriveNo → Profile} (h : b.fits q) (d : DriveNo) :
    (b.indexPulse d).fits q := by
  obtain ⟨h1, h2, h3, h4⟩ := h.rt d
  unfold Board.indexPulse
  dsimp only
  split
  · exact Board.modRt_fits h d (by simp only [h.2 d]; omega) h3 h4
  · exact Board.indexLocked_fits h d
  · exact Board.indexFreeRun_fits h d

theorem Board.watchdogExpire_fits {b : Board} {q : DriveNo → Profile} (h : b.fits q) (d : DriveNo)
    (last : Time) : (b.watchdogExpire d last).fits q := by
  obtain ⟨h1, h2, h3, h4⟩ := h.rt d
  have h1 := Board.note_fits (Board.modRt_fits (f := fun rt =>
    { rt with state := .freeRun, inBand := 0, doubt := true }) h d h2 h3 (Nat.zero_le _)) (some d)
    (.indexLost last (b.drv d).rt.revCount)
  unfold Board.watchdogExpire
  dsimp only
  split
  · exact h1
  · exact Board.note_fits h1 _ _

theorem Board.watchdog_fits {b : Board} {q : DriveNo → Profile} (h : b.fits q) (d : DriveNo) :
    (b.watchdog d).fits q := by
  unfold Board.watchdog
  try dsimp only
  repeat' split
  all_goals first | exact h | simp (maxDischargeDepth := 40) only [h, Board.watchdogExpire_fits]

theorem Board.endRecord_fits {b : Board} {q : DriveNo → Profile} (h : b.fits q) (d : DriveNo) :
    (b.endRecord d).fits q := by
  unfold Board.endRecord
  try dsimp only
  all_goals first | exact h | simp (maxDischargeDepth := 40) only [h, Board.modLp_fits]

theorem Board.closeSlot_fits {b : Board} {q : DriveNo → Profile} (h : b.fits q) (d : DriveNo) :
    (b.closeSlot d).1.fits q := by
  unfold Board.closeSlot
  try dsimp only
  repeat' split
  all_goals first | exact h | simp (maxDischargeDepth := 40) only [h, Board.abandonDiversion_fits,
      Board.endRecord_fits, Board.emissionOver_fits, Board.gateDrop_fits]

theorem Board.transfer_fits {b : Board} {q : DriveNo → Profile} (h : b.fits q) (d : DriveNo) (c : Course) :
    (b.transfer d c).fits q := by
  unfold Board.transfer
  try dsimp only
  all_goals first | exact h | simp (maxDischargeDepth := 40) only [h, Board.modLp_fits]

theorem Board.refuseWrite_fits {b : Board} {q : DriveNo → Profile} (h : b.fits q) (d : DriveNo) :
    (b.refuseWrite d).fits q := by
  unfold Board.refuseWrite
  try dsimp only
  all_goals first | exact h | simp (maxDischargeDepth := 40) only [h, Board.transfer_fits, Board.modLp_fits]

theorem Board.diversionOff_fits {b : Board} {q : DriveNo → Profile} (h : b.fits q) (d : DriveNo) (a : Addr) :
    (b.diversionOff d a).fits q := by
  unfold Board.diversionOff
  try dsimp only
  repeat' split
  all_goals first | exact h | simp (maxDischargeDepth := 40) only [h, Board.refuseWrite_fits,
      Board.transfer_fits]

theorem Board.startDivert_fits {b : Board} {q : DriveNo → Profile} (h : b.fits q) (d : DriveNo) (a : Addr)
    (slot : Nat) :
    (b.startDivert d a slot).fits q := by
  unfold Board.startDivert
  try dsimp only
  all_goals first | exact h | simp (maxDischargeDepth := 40) only [h, Board.abandonFill_fits,
      Board.transfer_fits, Board.modLp_fits]

theorem Board.openWrite_fits {b : Board} {q : DriveNo → Profile} (h : b.fits q) (d : DriveNo) :
    (b.openWrite d).fits q := by
  unfold Board.openWrite
  try dsimp only
  repeat' split
  all_goals first | exact h | simp (maxDischargeDepth := 40) only [h, Board.refuseWrite_fits,
      Board.transfer_fits, Board.startDivert_fits, Board.setKeep_fits, Board.diversionOff_fits]

theorem Board.openRead_fits {b : Board} {q : DriveNo → Profile} (h : b.fits q) (d : DriveNo) :
    (b.openRead d).fits q := by
  unfold Board.openRead
  try dsimp only
  repeat' split
  all_goals first | exact h | simp (maxDischargeDepth := 40) only [h, Board.transfer_fits, Board.modLp_fits,
      Board.voidBuffer_fits, Board.makeRelay_fits, Board.openLive_fits]

theorem Board.openSlot_fits {b : Board} {q : DriveNo → Profile} (h : b.fits q) (d : DriveNo) (k : Nat) :
    (b.openSlot d k).fits q := by
  unfold Board.openSlot
  try dsimp only
  repeat' split
  all_goals first | exact h | simp (maxDischargeDepth := 40) only [h, Board.openWrite_fits,
      Board.openRead_fits]

theorem Board.missSlot_fits {b : Board} {q : DriveNo → Profile} (h : b.fits q) (d : DriveNo) :
    (b.missSlot d).fits q := Board.modDa_fits (Board.dropWriteFill_fits h d) d _

theorem Board.openWriteSlot_fits {b : Board} {q : DriveNo → Profile} (h : b.fits q) (d : DriveNo) (k : Nat) :
    (b.openWriteSlot d k).fits q := by
  unfold Board.openWriteSlot
  try dsimp only
  repeat' split
  all_goals first | exact h | simp (maxDischargeDepth := 40) only [h, Board.modDa_fits, Board.modJob_fits,
      Board.startWriteFill_fits, Board.missSlot_fits]

theorem Board.openPassSlot_fits {b : Board} {q : DriveNo → Profile} (h : b.fits q) (d : DriveNo) (k : Nat) :
    (b.openPassSlot d k).fits q := by
  unfold Board.openPassSlot
  try dsimp only
  repeat' split
  all_goals first | exact h | simp (maxDischargeDepth := 40) only [h, Board.modDa_fits,
      Board.openWriteSlot_fits, Board.openPass_fits]

theorem Board.sectorPulse_fits {b : Board} {q : DriveNo → Profile} (h : b.fits q) (d : DriveNo) (wp : Bool) :
    (b.sectorPulse d wp).fits q := by
  unfold Board.sectorPulse
  dsimp only
  have h2 : ∀ c : Board × Bool, c.1.fits q → ∀ f,
      ((c.1.modDa d f).modRt d fun rt => rt.advance (b.drv d).profile.sectors).fits q := by
    intro c hc f
    have hf := Board.modDa_fits hc d f
    obtain ⟨g1, g2, g3, g4⟩ := hf.rt d
    refine Board.modRt_fits hf d ?_ ?_ ?_ <;> unfold Tracker.advance <;> split <;> simp only [h.2 d] at * <;>
      omega
  have h3 := fun f => h2 _ (Board.closeSlot_fits (Board.reportSlot_fits
    (Board.modPins_fits h d fun p => { p with writeProtect := wp }) d) d) f
  have h4 : ∀ (c : Prop) [Decidable c] (b' : Board), b'.fits q → ∀ k,
      (if c then b'.openPassSlot d k else b').fits q := by
    intro c _ b' hb k
    split
    · exact Board.openPassSlot_fits hb d k
    · exact hb
  have h5 : ∀ (c : Prop) [Decidable c] (b' : Board), b'.fits q → ∀ k,
      (if c then b'.liveEnded d else b'.openSlot d k).fits q := by
    intro c _ b' hb k
    split
    · exact Board.liveEnded_fits hb d
    · exact Board.openSlot_fits hb d k
  split
  · split
    · exact Board.passStop_fits (h5 _ _ (h4 _ _ (h3 _) _) _) d
    · exact Board.passEnd_fits (h5 _ _ (h4 _ _ (h3 _) _) _) d _
  · exact h5 _ _ (h4 _ _ (h3 _) _) _

theorem Board.sectorWritten_fits {b : Board} {q : DriveNo → Profile} (h : b.fits q) (d : DriveNo) :
    (b.sectorWritten d).fits q := by
  unfold Board.sectorWritten
  try dsimp only
  repeat' split
  all_goals first | exact h | simp (maxDischargeDepth := 40) only [h, Board.modDa_fits, Board.passStop_fits]

theorem Board.takeResync_fits {b : Board} {q : DriveNo → Profile} (h : b.fits q) (d : DriveNo) {k : Nat}
    (hk : k < (q d).sectors) : (b.takeResync d k).fits q := by
  obtain ⟨h1, h2, h3, h4⟩ := h.rt d
  unfold Board.takeResync
  dsimp only
  split
  · exact Board.note_fits (Board.modRt_fits h d hk h3 h4) _ _
  · exact h

theorem Channel.resync_lt {rc : Channel} {p : Profile} {k : Nat}
    (h : rc.resync p = some k) : k < p.sectors := by
  unfold Channel.resync at h
  split at h
  · split at h
    · rename_i hh; simp only [Bool.and_eq_true, decide_eq_true_eq] at hh
      simp only [Option.some.injEq] at h; omega
    · simp at h
  · simp at h

theorem Board.imageComplete_fits {b : Board} {q : DriveNo → Profile} (h : b.fits q) (d : DriveNo)
    (frames : List CellFrame) : (b.imageComplete d frames).fits q := by
  have h1 := Board.modRc_fits h d fun rc => rc.imageRead b.now frames
  unfold Board.imageComplete
  dsimp only
  repeat' split
  · rename_i hr; exact Board.takeResync_fits h1 d (by rw [← h1.2 d]; exact Channel.resync_lt hr)
  · exact h1
  · exact h1

theorem Board.takeOrWait_fits {b : Board} {q : DriveNo → Profile} (h : b.fits q) (d : DriveNo) :
    (b.takeOrWait d).fits q := by
  unfold Board.takeOrWait
  try dsimp only
  all_goals first | exact h | simp (maxDischargeDepth := 40) only [h, Board.tryTake_fits,
      Board.enterTaking_fits]

theorem Board.graceExpiry_fits {b : Board} {q : DriveNo → Profile} (h : b.fits q) (d : DriveNo) :
    (b.graceExpiry d).fits q := by
  unfold Board.graceExpiry
  try dsimp only
  repeat' split
  all_goals first | exact h | simp (maxDischargeDepth := 40) only [h, Board.tryTake_fits]

theorem Board.press_fits {b : Board} {q : DriveNo → Profile} (h : b.fits q) (serial : Nat) :
    (b.press serial).fits q := by
  unfold Board.press
  try dsimp only
  all_goals first | exact h | simp (maxDischargeDepth := 40) only [h, Board.modJob_fits]

theorem Board.starveExpiry_fits {b : Board} {q : DriveNo → Profile} (h : b.fits q) (id : Nat) :
    (b.starveExpiry id).fits q := by
  unfold Board.starveExpiry
  try dsimp only
  repeat' split
  all_goals first | exact h | simp (maxDischargeDepth := 40) only [h, Board.press_fits, Board.takeOrWait_fits]

theorem Board.noteHold_fits {b : Board} {q : DriveNo → Profile} (h : b.fits q) (d : DriveNo)
    (what : Stopped) :
    (b.noteHold d what).fits q := by
  unfold Board.noteHold
  try dsimp only
  repeat' split
  all_goals first | exact h | simp (maxDischargeDepth := 40) only [h, Board.note_fits, Board.modDa_fits]

theorem Board.holdExpiry_fits {b : Board} {q : DriveNo → Profile} (h : b.fits q) (d : DriveNo) :
    (b.holdExpiry d).fits q := by
  unfold Board.holdExpiry
  try dsimp only
  repeat' split
  all_goals first | exact h | simp (maxDischargeDepth := 40) only [h, Board.noteHold_fits, Board.modDa_fits,
      Board.passStop_fits, Board.stopChannel_fits]

theorem Board.ok_fits {b : Board} {q : DriveNo → Profile} (h : b.fits q) (fields : List Byte) :
    (b.ok fields).fits q := by
  unfold Board.ok
  try dsimp only
  all_goals exact h

theorem Board.identify_fits {b : Board} {q : DriveNo → Profile} (h : b.fits q) (w : List Byte) :
    (b.identify w).fits q := by
  unfold Board.identify
  try dsimp only
  all_goals exact h

theorem Board.getTime_fits {b : Board} {q : DriveNo → Profile} (h : b.fits q) (w : List Byte) :
    (b.getTime w).fits q := by
  unfold Board.getTime
  try dsimp only
  all_goals exact h

theorem Board.getDrive_fits {b : Board} {q : DriveNo → Profile} (h : b.fits q) (p : List Byte) :
    (b.getDrive p).fits q := by
  unfold Board.getDrive
  try dsimp only
  repeat' split
  all_goals exact h

theorem Board.getProfile_fits {b : Board} {q : DriveNo → Profile} (h : b.fits q) (p : List Byte) :
    (b.getProfile p).fits q := by
  unfold Board.getProfile
  try dsimp only
  repeat' split
  all_goals exact h

theorem Board.getLadder_fits {b : Board} {q : DriveNo → Profile} (h : b.fits q) (w : List Byte) :
    (b.getLadder w).fits q := by
  unfold Board.getLadder
  try dsimp only
  all_goals exact h

theorem Board.getJob_fits {b : Board} {q : DriveNo → Profile} (h : b.fits q) (p : List Byte) :
    (b.getJob p).fits q := by
  unfold Board.getJob
  try dsimp only
  repeat' split
  all_goals exact h

theorem Board.listJobs_fits {b : Board} {q : DriveNo → Profile} (h : b.fits q) (w : List Byte) :
    (b.listJobs w).fits q := by
  unfold Board.listJobs
  try dsimp only
  all_goals exact h

theorem Board.listSuspects_fits {b : Board} {q : DriveNo → Profile} (h : b.fits q) (p : List Byte) :
    (b.listSuspects p).fits q := by
  unfold Board.listSuspects
  try dsimp only
  repeat' split
  all_goals exact h

theorem Board.listKeep_fits {b : Board} {q : DriveNo → Profile} (h : b.fits q) (p : List Byte) :
    (b.listKeep p).fits q := by
  unfold Board.listKeep
  try dsimp only
  repeat' split
  all_goals exact h

theorem Board.getStoreLog_fits {b : Board} {q : DriveNo → Profile} (h : b.fits q) (w : List Byte) :
    (b.getStoreLog w).fits q := by
  unfold Board.getStoreLog
  try dsimp only
  all_goals exact h

theorem Board.resetBuffer_fits {b : Board} {q : DriveNo → Profile} (h : b.fits q) (d : DriveNo) :
    (b.resetBuffer d).fits q := by
  unfold Board.resetBuffer
  try dsimp only
  repeat' split
  all_goals first | exact h | simp (maxDischargeDepth := 40) only [h, Board.voidBuffer_fits,
      Board.makeRelay_fits, Board.askAgain_fits]

theorem Board.pressStarved_fits {b : Board} {q : DriveNo → Profile} (h : b.fits q) (d : DriveNo) :
    (b.pressStarved d).fits q := by
  refine Board.fits_of h ?_ ?_ ?_ ?_ ?_ ?_ ?_ ?_ <;> simp [Board.pressStarved]

theorem Board.recordShare_fits {b : Board} {q : DriveNo → Profile} (h : b.fits q) (d : DriveNo)
    (r : ShareReq) :
    (b.recordShare d r).fits q := by
  unfold Board.recordShare
  extract_lets lp b1 b2 b3
  have h2 : b2.fits q := by
    simp only [b2]; split
    · exact Board.modLp_fits h d _
    · exact Board.resetBuffer_fits (Board.modLp_fits h d _) d
  exact Board.autoQuad_fits (Board.modDa_fits h2 d _) _

theorem Board.setShare_fits {b : Board} {q : DriveNo → Profile} (h : b.fits q) (p : List Byte) :
    (b.setShare p).fits q := by
  unfold Board.setShare
  try dsimp only
  repeat' split
  all_goals first | exact h | simp (maxDischargeDepth := 40) only [h, Board.recordShare_fits,
      Board.reply_fits, Board.pressStarved_fits, Board.holdExpiry_fits, Board.takeOrWait_fits]

theorem Board.reachLadder_fits {b : Board} {q : DriveNo → Profile} (h : b.fits q) (serial : Nat) :
    (b.reachLadder serial).fits q := by
  unfold Board.reachLadder
  try dsimp only
  repeat' split
  all_goals first | exact h | simp (maxDischargeDepth := 40) only [h, Board.modJob_fits,
      Board.restOrFinish_fits]

theorem readSteps_length {p : List Byte} {n i : Nat} {l : List LadderStep} {a : Bool}
    (h : readSteps p n i = some (l, a)) : l.length = n := by
  induction n generalizing i l a with
  | zero => simp [readSteps] at h; simp [h.1.symm]
  | succ n ih =>
    unfold readSteps at h
    split at h
    · rename_i h3
      simp only [Option.some.injEq, Prod.mk.injEq] at h
      rw [← h.1]; simp [ih h3]
    · simp at h

theorem Board.setLadder_fits {b : Board} {q : DriveNo → Profile} (h : b.fits q) (p : List Byte) :
    (b.setLadder p).fits q := by
  unfold Board.setLadder
  split
  · exact Board.deny_fits h _
  · rename_i l a hl
    refine fits_foldl _ (fun b s hb => Board.reachLadder_fits hb s) (Board.reply_fits ?_ _ _ _)
    obtain ⟨⟨h1, h2, h3, h4, h5, h6⟩, h7⟩ := h
    unfold readLadder at hl
    split at hl
    · rename_i hn
      have := readSteps_length hl
      exact ⟨⟨h1, h2, h3, by simp only; omega, by simp only; omega, h6⟩, h7⟩
    · simp at hl

theorem Board.setSolve_fits {b : Board} {q : DriveNo → Profile} (h : b.fits q) (p : List Byte) :
    (b.setSolve p).fits q := by
  obtain ⟨⟨h1, h2, h3, h4, h5, h6, h7, h8, h9⟩, h10⟩ := h
  unfold Board.setSolve
  dsimp only
  refine Board.reply_fits ?_ _ _ _
  refine ⟨⟨h1, h2, h3, h4, h5, ?_, ?_, ?_, h9⟩, h10⟩ <;> simp only [clampTo] <;> (repeat' split) <;> omega

theorem Board.setScrub_fits {b : Board} {q : DriveNo → Profile} (h : b.fits q) (p : List Byte) :
    (b.setScrub p).fits q := by
  unfold Board.setScrub
  dsimp only
  refine Board.reply_fits ?_ _ _ _
  exact Board.fits_mkSk h _ _ _ _ _ _ _ _ _ _ h.1.2.2.2.2.2.2.2.2.1 h.1.2.2.2.2.2.2.2.2.2

theorem Board.fileJob_fits {b : Board} {q : DriveNo → Profile} (h : b.fits q) (p : List Byte) :
    (b.fileJob p).fits q := by
  unfold Board.fileJob
  try dsimp only
  repeat' split
  all_goals first | exact h | simp (maxDischargeDepth := 40) only [h, Board.fileNow_fits]

theorem Board.cancelJob_fits {b : Board} {q : DriveNo → Profile} (h : b.fits q) (p : List Byte) :
    (b.cancelJob p).fits q := by
  unfold Board.cancelJob
  try dsimp only
  repeat' split
  all_goals first | exact h | simp (maxDischargeDepth := 40) only [h, Board.ok_fits, Board.finish_fits]

theorem Board.dropSuspect_fits {b : Board} {q : DriveNo → Profile} (h : b.fits q) (p : List Byte) :
    (b.dropSuspect p).fits q := by
  unfold Board.dropSuspect
  repeat' split
  all_goals first
    | exact Board.deny_fits h _
    | exact Board.ok_fits (Board.filterSuspects_fits h _) _

theorem Board.fetchSector_fits {b : Board} {q : DriveNo → Profile} (h : b.fits q) (p : List Byte) :
    (b.fetchSector p).fits q := by
  unfold Board.fetchSector
  try dsimp only
  repeat' split
  all_goals exact h

theorem Board.fetchCapture_fits {b : Board} {q : DriveNo → Profile} (h : b.fits q) (p : List Byte) :
    (b.fetchCapture p).fits q := by
  unfold Board.fetchCapture
  try dsimp only
  repeat' split
  all_goals exact h

theorem Board.storeSector_fits {b : Board} {q : DriveNo → Profile} (h : b.fits q) (p : List Byte) :
    (b.storeSector p).fits q := by
  unfold Board.storeSector
  try dsimp only
  repeat' split
  all_goals exact h

theorem Board.patchWord_fits {b : Board} {q : DriveNo → Profile} (h : b.fits q) (p : List Byte) :
    (b.patchWord p).fits q := by
  unfold Board.patchWord
  try dsimp only
  repeat' split
  all_goals exact h

theorem Board.releaseSector_fits {b : Board} {q : DriveNo → Profile} (h : b.fits q) (p : List Byte) :
    (b.releaseSector p).fits q := by
  unfold Board.releaseSector
  try dsimp only
  repeat' split
  all_goals first | exact h | simp (maxDischargeDepth := 40) only [h, Board.releaseEntry_fits, Board.ok_fits]

theorem Board.clearStoreLog_fits {b : Board} {q : DriveNo → Profile} (h : b.fits q) (p : List Byte) :
    (b.clearStoreLog p).fits q := by
  unfold Board.clearStoreLog
  refine Board.ok_fits ?_ _
  exact Board.fits_mkSk h _ _ _ _ _ _ _ _ _ _ h.1.2.2.2.2.2.2.2.2.1 (Nat.zero_le _)

theorem Board.powerNotices_fits {b : Board} {q : DriveNo → Profile} (h : b.fits q) (r : Bool)
    (named : List KeepEntry) : (b.powerNotices r named).fits q := by
  unfold Board.powerNotices
  dsimp only
  split
  · exact fits_foldl _ (fun b e hb => Board.addReport_fits hb _ _ _) (Board.note_fits (Board.note_fits h _ _) _ _)
  · exact Board.note_fits h _ _

theorem Board.restartRestore_fits {b : Board} {q : DriveNo → Profile} (h : b.fits q) (d : DriveNo) :
    (b.restartRestore d).fits q := by
  unfold Board.restartRestore
  try dsimp only
  repeat' split
  all_goals first | exact h | simp (maxDischargeDepth := 40) only [h, Board.restoreSteps_fits]

/-! ### Resets and profiles -/

/-- A board in range fits its own profiles. -/
theorem Board.fits_self {b : Board} (h : b.inRange) : b.fits fun d => (b.drv d).profile := ⟨h, fun _ => rfl⟩

/-- A taken SET_PROFILE keeps every tracker in range of its profile (R9, R11, R41). -/
theorem Board.changeProfile_inRange {b : Board} (h : b.inRange) (d : DriveNo) (p : Profile)
    (hp : 1 ≤ p.cylinders ∧ p.cylinders ≤ 512 ∧ 1 ≤ p.heads ∧ p.heads ≤ 4 ∧ 8 ≤ p.sectors ∧ p.sectors ≤ 16 ∧
      15000 ≤ p.period ∧ p.period ≤ 40000) : (b.changeProfile d p).inRange := by
  have key : ∀ f : Tracker → Tracker, (∀ rt, (f rt).position < p.sectors) →
      (∀ rt, rt.history.length ≤ 8 → (f rt).history.length ≤ 8) → (∀ rt, rt.inBand ≤ 8 → (f rt).inBand ≤ 8) →
      ((b.modDrv d fun x => { x with profile := p }).modRt d f).inRange := by
    intro f f1 f2 f3
    obtain ⟨h1, h2⟩ := h
    refine ⟨fun e => ?_, h2⟩
    by_cases he : e = d
    · subst he
      obtain ⟨-, -, -, -, -, -, -, -, -, h10, h11⟩ := h1 e
      obtain ⟨p1, p2, p3, p4, p5, p6, p7, p8⟩ := hp
      simp only [Board.drv, Board.modRt, Board.modDrv, Quad.get_set_same]
      exact ⟨p1, p2, p3, p4, p5, p6, p7, p8, f1 _, f2 _ h10, f3 _ h11⟩
    · have := h1 e
      simpa only [Board.drv, Board.modRt, Board.modDrv, Quad.get_set_other _ _ he] using this
  have h1 := key (fun rt => { rt with
        position := rt.position % p.sectors,
        inBand := if p.period = (b.drv d).profile.period then rt.inBand else 0 })
    (fun rt => Nat.mod_lt _ (by omega)) (fun rt hr => hr)
    (fun rt hr => by show (if _ then _ else _) ≤ 8; split <;> omega)
  unfold Board.changeProfile
  extract_lets old b1 b2 x b3 b4
  have h2 : b2.fits fun e => (b1.drv e).profile := Board.resetBuffer_fits (Board.fits_self h1) d
  have h3 : b3.fits fun e => (b1.drv e).profile := Board.note_fits h2 _ _
  have h4 : b4.fits fun e => (b1.drv e).profile := by
    simp only [b4]
    split
    · exact h3
    · exact Board.watchdog_fits h3 d
  exact h4.1

/-- A profile that passes the checks of R10 is within the ranges of R9. -/
theorem readProfile_inRange {p : List Byte} {r : Profile} {a : Bool} (h : readProfile p = some (r, a)) :
    1 ≤ r.cylinders ∧ r.cylinders ≤ 512 ∧ 1 ≤ r.heads ∧ r.heads ≤ 4 ∧ 8 ≤ r.sectors ∧ r.sectors ≤ 16 ∧
      15000 ≤ r.period ∧ r.period ≤ 40000 := by
  unfold readProfile at h
  dsimp only at h
  split at h
  · rename_i hc
    simp only [Option.some.injEq, Prod.mk.injEq] at h
    rw [← h.1]
    obtain ⟨h1, h2, h3, h4, h5, h6, -⟩ := hc
    refine ⟨h1, h2, h3, h4, h5, h6, ?_⟩
    simp only [clampTo]
    constructor <;> (repeat' split) <;> omega
  · simp at h

theorem Board.setProfile_inRange {b : Board} (h : b.inRange) (p : List Byte) : (b.setProfile p).inRange := by
  have hd : ∀ st, (b.deny st).inRange := fun st => (Board.deny_fits (Board.fits_self h) st).1
  unfold Board.setProfile
  repeat' split
  · exact hd _
  · exact hd _
  · exact hd _
  · rename_i hr
    exact (Board.reply_fits (Board.fits_self (Board.changeProfile_inRange h _ _ (readProfile_inRange hr))) _ _ _).1

/-- A drive port just reset is in range (R9, R41). -/
theorem Drive.inRange_default {x : Drive} (hp : x.profile = .default) (hr : x.rt = .reset) : x.inRange := by
  unfold Drive.inRange
  rw [hp, hr]
  decide

/-- The board after a POWER-UP is in range. -/
theorem Board.powerUp_inRange (b : Board) (r s1 s2 : Bool) (ready : BitVec 4) :
    (b.powerUp r s1 s2 ready).inRange := by
  refine ⟨fun d => Drive.inRange_default ?_ ?_, ?_⟩
  rotate_right
  · simp [Board.powerUp, Engine.reset, Solver.reset, Upkeep.reset, defaultLadder]
  all_goals (unfold Board.drv Quad.get Board.powerUp; fin_cases d <;> rfl)

theorem finishWrite_fits {q : DriveNo → Profile} {p : Board × Dram} (h : p.1.fits q) (kind : OpKind) :
    (finishWrite p kind).1.fits q := by
  unfold finishWrite
  split
  · exact Board.commitReset_fits (drainOp_fits _ _ _ h) _
  · exact Board.copyDone_fits (drainOp_fits _ _ _ h) _
  · exact h

theorem finishWrites_fits {b : Board} {m : Dram} {q : DriveNo → Profile} (h : b.fits q) :
    (finishWrites b m).1.fits q := by
  unfold finishWrites
  generalize b.ts.ops.map (·.kind) = ks
  induction ks generalizing b m with
  | nil => exact h
  | cons k ks ih => exact ih (finishWrite_fits h k)

/-- The board after a RESTART is in range. -/
theorem Board.restart_inRange {b : Board} (h : b.inRange) : b.restart.inRange := by
  unfold Board.restart
  dsimp only
  refine (fits_foldl (q := fun _ => .default) _ (fun b d hb => ?_) ?_).1
  · unfold Board.restartRestore
    dsimp only
    split
    · exact Board.restoreSteps_fits hb d
    · exact hb
  · obtain ⟨-, -, -, -, -, -, -, -, h9, h10⟩ := h
    refine ⟨⟨fun d => Drive.inRange_default ?_ ?_, ?_, ?_, ?_, ?_, ?_, ?_, ?_, h9, h10⟩, fun d => ?_⟩
    · unfold Board.drv Quad.get; fin_cases d <;> rfl
    · unfold Board.drv Quad.get; fin_cases d <;> rfl
    · simp [Engine.reset]
    · simp [Engine.reset]
    · simp [Engine.reset, defaultLadder]
    · simp [Engine.reset, defaultLadder]
    · simp [Solver.reset]
    · simp [Solver.reset]
    · simp [Solver.reset]
    · unfold Board.drv Quad.get; fin_cases d <;> rfl

theorem Board.nextSolveFor_fits {b : Board} {q : DriveNo → Profile} (h : b.fits q) (n : Nat) :
    (b.nextSolveFor n).fits q := by
  induction n generalizing b with
  | zero => exact h
  | succ n ih =>
    unfold Board.nextSolveFor
    split
    · exact ih (Board.solveStart_fits (Board.fits_mk h _ _ _ _ _ _ _ _ _ _))
    · exact h

/-- The end of a step keeps the board in range. -/
theorem settle_inRange (s : State) {b : Board} (l : Link) (m : Dram) (h : b.inRange) :
    (settle s b l m).board.inRange :=
  (Board.examine_fits (Board.nextSolveFor_fits (Board.fits_self h) _)).1

end Sys2Proof.Machine
end

