-- ==== Sys2Proof/WellFormed.lean ====
section
/-! DEFINITION. Which operand values a command can carry: lengths the rules fix and names that exist. -/

namespace Sys2Proof

/-- The operands a command can carry by the rules; everything else is bounded by its type. -/
def Instr.wellFormed : Instr → Bool
  | .syncHuntLimit _ frames => frames.length = 400
  | .imageComplete _ frames => frames.length = 2064
  | .headerWordsRead _ frames => frames.length = 32
  | .syncFound _ frames => 25 ≤ frames.length && frames.length ≤ 400
  | .absorptionComplete _ data _ => data.length = 128
  | .starveLimitExpiry job => job ≠ 0
  | .snapshotReadComplete slot => 5120 ≤ slot && slot < 6144
  | .directoryCopyEnd slot => slot < 5120
  | _ => true

end Sys2Proof
end

