-- ==== Sys2Proof/Tests/Slice0.lean ====
section
/-! SUPPORT. Tests against the spec's worked examples, the well-formedness smoke tests, and for each statement
with hypotheses a concrete state that meets them. -/

namespace Sys2Proof.Tests

set_option Elab.async false

open Sys2Proof Sys2Proof.Machine

/-! ### Well-formedness: each check refuses an ill-formed command -/

theorem test_wf_syncHuntLimit : (Instr.syncHuntLimit 0 [0]).wellFormed = false := by decide +kernel
theorem test_wf_imageComplete : (Instr.imageComplete 0 []).wellFormed = false := by decide +kernel
theorem test_wf_headerWords : (Instr.headerWordsRead 0 [0, 0]).wellFormed = false := by decide +kernel
theorem test_wf_syncFound_short : (Instr.syncFound 0 (List.replicate 24 0)).wellFormed = false := by decide +kernel
theorem test_wf_syncFound_long : (Instr.syncFound 0 (List.replicate 401 0)).wellFormed = false := by
  decide +kernel
theorem test_wf_absorption : (Instr.absorptionComplete 0 [0] 0).wellFormed = false := by decide +kernel
theorem test_wf_starve : (Instr.starveLimitExpiry 0).wellFormed = false := by decide +kernel
theorem test_wf_snapshot_low : (Instr.snapshotReadComplete 5119).wellFormed = false := by decide +kernel
theorem test_wf_snapshot_high : (Instr.snapshotReadComplete 6144).wellFormed = false := by decide +kernel
theorem test_wf_directoryCopy : (Instr.directoryCopyEnd 5120).wellFormed = false := by decide +kernel
theorem test_wf_accepts : (Instr.headerWordsRead 0 (List.replicate 32 0)).wellFormed = true := by decide +kernel
theorem test_no_word_spells : decodeTableWord 16 0 = none := rfl

/-! ### The sector image: sections 1.4 and 1.5 -/

/-- The sector of section 1.4: drive 1, cylinder 203, head 1, sector 5. -/
def exAddr : Addr := { drive := 1, cyl := 203, head := 1, sector := 5 }

/-- The data words of section 1.4, the last one given. -/
def exData (last : Word) : List Word := 0x4E21 :: List.replicate 126 0 ++ [last]

/-- The image of section 1.4. -/
def exImage : List Word := buildImage exAddr 291 (exData 0x0102)

theorem test_addressWord : addressWord 203 1 = 0x65A0 := by decide +kernel
theorem test_identityWord : identityWord 5 291 = 0x5123 := by decide +kernel
theorem test_check_after2 : rotSum (exImage.take 3) = 0x86E7 := by decide +kernel
theorem test_check_word : exImage.getD 130 0 = 0xC475 := by decide +kernel
theorem test_check_misread : soundImage (exImage.set 129 0x0103) = false := by decide +kernel
theorem test_check_misread_sum : rotSum ((exImage.set 129 0x0103).take 130) = 0xC476 := by decide +kernel

/-- The profile of section 1.5 with a volume. -/
def exProfile (vol : Option (BitVec 12)) : Profile := { Profile.default with volume := vol }

theorem test_header_match : headerTest (exProfile (some 291)) 203 1 5 ⟨203, 1, 0, 5, 291⟩ = .matched := by decide +kernel
theorem test_header_volume : headerTest (exProfile (some 291)) 203 1 5 ⟨203, 1, 0, 5, 290⟩ = .volume := by decide +kernel
theorem test_header_any : headerTest (exProfile none) 203 1 5 ⟨203, 1, 0, 5, 290⟩ = .matched := by decide +kernel
theorem test_header_sector : headerTest (exProfile (some 291)) 203 1 5 ⟨203, 1, 0, 6, 291⟩ = .address := by decide +kernel
theorem test_header_cyl : headerTest (exProfile (some 291)) 203 1 5 ⟨202, 1, 0, 5, 291⟩ = .address := by decide +kernel
theorem test_header_format : headerTest (exProfile (some 291)) 203 1 5 ⟨203, 1, 1, 5, 290⟩ = .address := by decide +kernel

/-! ### Cells: the worked cases of section 4.3 -/

/-- A frame with transitions at positions. -/
def frame (ts : List Nat) : CellFrame := ts.foldl (fun f t => f ||| BitVec.twoPow 32 t) 0

/-- The bit and margin of a cell with one clock transition, at position 1 of its own frame. -/
def cell (s : Int) (ts : List Nat) : Bool × Nat := (cellBit s (frame (1 :: ts)), cellMargin s 0 (frame (1 :: ts)))

theorem test_cell_window : [cell 0 [14], cell 0 [16], cell 0 [8], cell 0 [23], cell 0 [11, 18]] =
    [(true, 6), (true, 7), (true, 0), (true, 0), (true, 0)] := by decide +kernel
theorem test_cell_strays : [cell 0 [], cell 0 [5], cell 0 [7], cell 0 [26], cell 0 [12, 6]] =
    [(false, 7), (false, 2), (false, 0), (false, 2), (true, 1)] := by decide +kernel
theorem test_cell_shifted : [cell 4 [20], cell 4 [10], cell 4 [4], cell (-4) [14]] =
    [(true, 7), (false, 1), (false, 7), (true, 5)] := by decide +kernel
theorem test_cell_clock : cellMargin 0 (frame [30]) (frame [2, 14]) = 0 := by decide +kernel

/-- The frames of the word 0x4A3C of section 4.3, with the cell of bit 8 given. -/
def exWord (bit8 : List Nat) : List CellFrame :=
  [[], [15], [], [], [13], [], [16], bit8, [], [], [18], [14], [15], [17], [], []].map fun ts => frame (1 :: ts)

theorem test_word_quality : readWords 0 1 0 (exWord []) = [(0x4A3C, 5)] := by decide +kernel
theorem test_word_stray : readWords 0 1 0 (exWord [6]) = [(0x4A3C, 1)] := by decide +kernel
theorem test_word_window : readWords 0 1 0 (exWord [9]) = [(0x4B3C, 1)] := by decide +kernel

/-! ### The full solve of section 7.12 -/

/-- A capture that agrees with the true image but for words 60, 128, 129 and 130. -/
def exCapture (ws : List Word) (qs : List Nat) : List Word × List Nat :=
  ((((exImage.set 60 (ws.getD 0 0)).set 128 (ws.getD 1 0)).set 129 (ws.getD 2 0)).set 130 (ws.getD 3 0),
    ((((List.replicate 131 7).set 60 (qs.getD 0 0)).set 128 (qs.getD 1 0)).set 129 (qs.getD 2 0)).set 130
      (qs.getD 3 0))

/-- The three captures of section 7.12. -/
def exSnapshot : List (List Word × List Nat) :=
  [exCapture [0x0000, 0x0000, 0x0103, 0xC475] [1, 4, 2, 3],
   exCapture [0x0000, 0x0800, 0x0102, 0xC675] [4, 6, 3, 4],
   exCapture [0x0010, 0x0000, 0x0003, 0xC477] [1, 3, 2, 4]]

/-- The bits of words 60, 128, 129 and 130 as voted. -/
def exVotes : List VotedBit :=
  [60, 128, 129, 130].flatMap fun i => (List.range 16).map fun j =>
    let v := voteBit (ballots exSnapshot i (15 - j))
    { word := i, bit := 15 - j, value := v.1, conf := v.2 }

/-- The voted bits and confidences of section 7.12 at word 60 bits 4 and 0, word 128 bits 11 and 0, word 129 bits 0, 8,
1 and 15, and word 130 bits 9, 1 and 0. -/
theorem test_votes :
    ([(60, 4), (60, 0), (128, 11), (128, 0), (129, 0), (129, 8), (129, 1), (129, 15), (130, 9), (130, 1),
        (130, 0)].map fun x => voteBit (ballots exSnapshot x.1 x.2)) =
      [(false, 4), (false, 6), (false, 1), (false, 13), (true, 1), (true, 3), (true, 7), (false, 7), (false, 3),
        (false, 3), (true, 11)] := by
  decide +kernel

/-- The first six weak bits of section 7.12, in the order of its table. -/
theorem test_weak_bits :
    ((weakBits 6 exVotes).map fun v => (v.word, v.bit, v.conf)) =
      [(128, 11, 1), (129, 0, 1), (129, 8, 3), (130, 9, 3), (130, 1, 3), (60, 4, 4)] := by
  decide +kernel

/-- The search of section 7.12: of size 1 only mask 2 is sound, and its candidate is the true image. -/
theorem test_search :
    searchSizes (exImage.set 129 0x0103) (weakBits 6 exVotes) 6 6 1 =
      .matched [⟨129, 0, true, 1⟩] exImage := by
  decide +kernel

/-- The grades of section 7.12: 1 flip is C; without flips, 6 below the threshold 8 is B. -/
theorem test_grades : gradeOf 1 1 8 = .c ∧ gradeOf 0 6 8 = .b ∧ gradeOf 0 8 8 = .a := by decide +kernel

/-! ### Small states -/

/-- The state right after reset with its board changed. -/
def brd (f : Board → Board) : State := { State.reset with board := f State.reset.board }

/-- The same with drive 0 changed. -/
def drv0 (f : Drive → Drive) : State := brd (·.modDrv 0 f)

/-- The same with the tracker of drive 0 changed. -/
def trk0 (f : Tracker → Tracker) : State := drv0 fun x => { x with rt := f x.rt }

/-- The same with the channel of drive 0 changed. -/
def chn0 (f : Channel → Channel) : State := drv0 fun x => { x with rc := f x.rc }

/-- The same with the live path of drive 0 changed. -/
def liv0 (f : LivePath → LivePath) : State := drv0 fun x => { x with lp := f x.lp }

/-- The same with the arbiter of drive 0 changed. -/
def arb0 (f : Arbiter → Arbiter) : State := drv0 fun x => { x with da := f x.da }

/-- The state with the time base at a reading. -/
def at_ (n : Nat) (s : State) : State := { s with board := { s.board with now := BitVec.ofNat 40 n } }

/-- The state right after reset with its link changed. -/
def lnk (f : Link → Link) : State := { State.reset with link := f State.reset.link }

/-- The state with a request in hand, tag 7. -/
def asked (kind : Byte) (p : List Byte) (s : State := State.reset) : State :=
  { s with link := { s.link with queue := [⟨kind, 7, p⟩] } }

theorem asked_inHand (kind : Byte) (p : List Byte) (s : State) (hh : s.link.hand = .fresh)
    (hr : s.link.restart = .none) (h : lengthFits kind p = true) : (asked kind p s).inHand kind p :=
  ⟨⟨⟨kind, 7, p⟩, by simp [asked, Link.inHand, hh, hr], rfl, rfl⟩, h⟩

/-- A request put in hand at a link that handles none, and what else holds there. -/
theorem asked_meets {kind : Byte} {p : List Byte} {s : State} {P : Prop}
    (h : (s.link.hand = .fresh ∧ s.link.restart = .none ∧ lengthFits kind p = true) ∧ P) :
    (asked kind p s).inHand kind p ∧ P :=
  ⟨asked_inHand kind p s h.1.1 h.1.2.1 h.1.2.2, h.2⟩

/-- Each of several requests put in hand right after reset, and what else holds there. -/
theorem asked_each {l : List (Byte × List Byte)} {P : Prop}
    (h : (∀ x ∈ l, lengthFits x.1 x.2 = true) ∧ P) : (∀ x ∈ l, (asked x.1 x.2).inHand x.1 x.2) ∧ P :=
  ⟨fun x hx => asked_inHand x.1 x.2 _ rfl rfl (h.1 x hx), h.2⟩

/-- The store of the board with its initialisation done. -/
def storeReady (b : Board) : Board := { b with ts := { b.ts with init := none } }

/-- An operation on a slot with nothing left to do. -/
def doneOp (kind : OpKind) (slot : Nat) (got : List (BitVec 32) := []) : StoreOp :=
  { kind := kind, slot := slot, at_ := 0, todo := [], got := got, syn := [], double := false, wrote := [],
    spoiled := false, lastAt := 0 }

/-- The board with these operations, its store ready. -/
def withOps (ops : List StoreOp) (b : Board) : Board := { b with ts := { b.ts with ops := ops, init := none } }

/-- A keep entry in slot 0. -/
def entry0 (a : Addr) (kind : KeepKind) : KeepEntry :=
  { addr := a, slot := 0, kind := kind, damaged := false, time := 0, epoch := 1, exported := false }

/-- The board with one keep entry, its store ready. -/
def withEntry (e : KeepEntry) (b : Board) : Board :=
  { b with ts := { b.ts with init := none, dir := [e], keep := [(0, .entry)] } }

/-- A job of drive 0 and cylinder 203, head 1, serial 0 and id 1. -/
def job0 (kind : JobKind) (state : JobState) (sectors : List SalvageSector) : Job :=
  { serial := 0, id := 1, kind := kind, drive := 0, cyl := 203, head := 1, endCyl := 203, curCyl := 203,
    curHead := 0, tracksFound := 0, accept := .b, repeats := 1, retain := false, step := 0, passes := 0, rep := 0,
    exhausted := false, recal := false, tally := none, total := 0, abandoned := 0, seekFails := 0,
    level := .patient, since := 0, filed := 0, state := state, sectors := sectors, relay := [],
    relayStep := .prepare, stepPass := 0, stale := false, written := false, fatal := false }

/-- A PENDING sector with slot 0 reserved and the captures given. -/
def sector0 (k : Nat) (caps : List Capture) : SalvageSector :=
  { sector := k, status := .pending, caps := caps, best := none, slot := some 0 }

/-- A held capture in a slot. -/
def held0 (slot : Nat) : Capture := { Capture.pendingAt slot with held := true }

/-- A SALVAGE of sectors 5 and 6. -/
def salv0 (state : JobState) (caps : List Capture) : Job :=
  job0 .salvage state [sector0 5 caps, { sector0 6 [] with slot := some 1 }]

/-- The board with one job. -/
def withJob (j : Job) (b : Board) : Board := { b with re := { b.re with jobs := [j], nextSerial := 1 } }

/-- Sector 5 of cylinder 203, head 1 of drive 0. -/
def addr5 : Addr := { drive := 0, cyl := 203, head := 1, sector := 5 }

/-- The payload of addr5. -/
def addr5Bytes : List Byte := [0, 0, 203, 1, 5]

/-! ### The service link: section 10.2 -/

theorem test_frame : frameBytes 0x05 0x17 [0x01, 0x20] =
    [0xC3, 0x00, 0x02, 0x05, 0x17, 0x01, 0x20, 0x00, 0xC6] := by decide +kernel

theorem test_frame_check_bad :
    ((([0xC3, 0x00, 0x02, 0x05, 0x17, 0x01, 0x21, 0x00, 0xC6] : List Byte).foldl
      (fun p x => takeByte p.1 p.2 x) (State.reset.board, State.reset.link)).1.out.map (·.body)) =
      [.badFrame .check (some 5) (some 0x17) (some 2)] := by decide +kernel

/-! ### The tracker: sections 3.8 and 3.9 -/

/-- The tracker fields of drive 0 that a command leaves: position, revolution count, wrap suppression, slip count. -/
def track0 (c : Instr) (s : State) : Option (Nat × Nat × Bool × Nat) :=
  match exec c s with
  | .next t =>
    let rt := (t.board.drv 0).rt
    some (rt.position, rt.revCount, rt.suppress, rt.slipCount)
  | _ => none

/-- The tracker of section 3.8. -/
def slips (position rev : Nat) (suppress : Bool) (count : Nat) : State :=
  trk0 fun rt => { rt with state := .locked, position := position, revCount := rev, suppress := suppress,
                           slipCount := count, lastIndex := some 0 }

theorem test_slip_late : track0 (.indexPulse 0) (slips 12 1001 false 4) = some (13, 1001, false, 5) := by
  decide +kernel
theorem test_slip_early : track0 (.indexPulse 0) (slips 1 1003 false 5) = some (13, 1003, true, 6) := by
  decide +kernel
theorem test_wrap_suppressed : track0 (.sectorPulse 0 false) (slips 13 1003 true 6) = some (0, 1003, false, 6) := by
  decide +kernel
theorem test_wrap_counted : track0 (.sectorPulse 0 false) (slips 13 1000 false 4) = some (0, 1001, false, 4) := by
  decide +kernel

/-- Section 3.9: the fourth slow period takes the average to 25,935 and sets speed doubt. -/
theorem test_speed_doubt :
    (match exec (.indexPulse 0) (at_ 27100 (trk0 fun rt =>
        { rt with state := .locked, position := 13, lastIndex := some 0, doubt := false,
                  history := [25000, 24980, 25030, 25010, 24960, 26600, 26800, 27000] })) with
      | .next t => some ((t.board.drv 0).rt.average, (t.board.drv 0).rt.doubt, (t.board.drv 0).rt.inBand)
      | _ => none) = some (some 25935, true, 0) := by decide +kernel

/-- Section 3.9: at an average of 25,935 the watchdog expires at 38,903 and not before. -/
theorem test_watchdog :
    ([38902, 38903].map fun t => ({ Tracker.reset with
        state := .locked,
        history := [24980, 25030, 25010, 24960, 26600, 26800, 27000, 27100] } : Tracker).watchdogDue
      .default t) = [false, true] := by decide +kernel

/-- Section 9.5: cell 40 of slot 2,311 is cell address 191,853, and slot 5,300 cell 12 is 439,912. -/
theorem test_cellAddress : cellAddress 2311 40 = 191853 ∧ cellAddress 5300 12 = 439912 := by decide +kernel

/-- Section 1.6: a position of 13 under 12 sectors becomes 1, and the period 14,000 becomes 15,000. -/
theorem test_setProfile :
    (match exec .setProfile (asked 0x04 [0, 1, 44, 2, 12, 0, 77, 0x36, 0xB0] (trk0 fun rt =>
        { rt with position := 13 })) with
      | .next t => some ((t.board.drv 0).rt.position, (t.board.drv 0).profile, t.link.tx.map fun
          | .reply r => r.answer.adjusted
          | .notice _ => false)
      | _ => none) =
      some (1, { cylinders := 300, heads := 2, sectors := 12, volume := some 77, period := 15000 }, some true) := by
  decide +kernel

/-- The machine after reset stands as after a POWER_UP with the inputs log entry 1 names. -/
theorem test_reset_powerUp :
    exec (.powerUp false false false 0xF) State.reset = .next State.reset := rfl

/-! ### Witnesses: states that meet the hypotheses of each statement, clause by clause -/

theorem witness_StepRunsFront_idle : State.reset.pending = [] := rfl

theorem witness_EndOfStep :
    (State.reset.board.solveOver = false ∧ State.reset.board.exam = false ∧ State.reset.board.noAuto) ∧
      (asked 1 []).link.queue = ⟨1, 7, []⟩ :: [] := by decide +kernel
theorem witness_EndOfStep_solve :
    let b := (brd fun b => { b with solveOver := true }).board
    b.solveOver = true ∧ ({ b with solveOver := false } : Board).solveStart.solveOver = false := by decide +kernel

/-- A suspect entry of the track of addr5. -/
def suspect5 (mask : SectorSet) : Suspect :=
  { track := addr5.track, mask := mask, count := 1, first := 0, last := 0, source := .live }

/-- The board with that entry to examine, auto-salvage on at drive 0. -/
def examined0 (mask : SectorSet) (gate : Bool) : Board :=
  (brd fun b => { (storeReady b).modLp 0 fun lp => { lp with gate := gate, cmd := { lp.cmd with target := addr5 } } with
    exam := true, re := { b.re with suspects := [suspect5 mask], auto := ⟨true, false, false, false⟩ } }).board

theorem witness_EndOfStep_tried :
    ∀ n ∈ [0x4000, 0x4020, 0xFFFF], ∀ gate ∈ [false, true],
      let x := suspect5 (BitVec.ofNat 16 n)
      let b := examined0 x.mask gate
      b.solveOver = false ∧ b.exam = true ∧
        b.re.suspects.filter (fun y => b.re.auto.get y.track.drive && !(b.drv y.track.drive).da.lost) = [x] ∧
        trackWithin (b.drv 0).profile 203 1 = true ∧ b.trackJob x.track = none ∧ b.re.jobs.length < 8 ∧
        b.ts.init = none ∧ b.ts.keep = [] ∧ b.ts.dir = [] ∧ b.gateOnTrack x.track = gate := by decide +kernel
theorem witness_EndOfStep_targets :
    ([0x4000, 0x4020, 0xFFFF].map fun n =>
        maskSectors (BitVec.ofNat 16 n) ((examined0 (BitVec.ofNat 16 n) false).drv 0).profile.sectors) =
      [[], [5], List.range 14] := by decide +kernel
/-- The board with entries of another track on the suspect list. -/
def suspected0 (n : Nat) (b : Board) : Board :=
  { b with re := { b.re with suspects := List.replicate n { suspect5 1 with track := { addr5.track with head := 0 } } } }

theorem witness_EndOfStep_report :
    ∀ n ∈ [0, 63, 64],
      let b := (brd (suspected0 n)).board
      b.trackJob addr5.track = none ∧ (∀ y ∈ b.re.suspects, y.track ≠ addr5.track) ∧
        (b.re.suspects.length < 64 ↔ n ≠ 64) := by decide +kernel
theorem witness_EndOfStep_listed :
    let b := (brd fun b => { b with re := { b.re with suspects := [suspect5 1] } }).board
    b.trackJob addr5.track = none ∧ ∃ y ∈ b.re.suspects, y.track = addr5.track := by decide +kernel

theorem witness_NoticeQueued_room : State.reset.link.notices.length < 32 := by decide +kernel
theorem witness_NoticeQueued_full :
    let l := (lnk fun l => { l with lost := 255, notices := List.replicate 32 (startNotice false 1 0 true 0) }).link
    32 ≤ l.notices.length ∧ l.lost ≤ 255 := by decide +kernel

theorem witness_StepKeepsForm :
    step State.reset = .next (tick State.reset) ∧ dramWf State.reset.dram = true ∧ State.reset.link.bounded ∧
      State.reset.quiet := ⟨rfl, by decide +kernel, by decide +kernel, by decide +kernel⟩

theorem reset_inRange : State.reset.board.inRange := by
  unfold Board.inRange
  decide +kernel
theorem reset_drive_slotsIn (now : Time) (ready : Bool) : (Drive.reset now ready).slotsIn := by
  simp [Drive.slotsIn, Drive.reset, LivePath.reset, Channel.reset, CaptureBuffer.empty, Setup.slotsIn, slotIn]
theorem reset_slotsIn : State.reset.board.slotsIn := by
  have hd : ∀ d, State.reset.board.drv d = Drive.reset 0 true := by decide
  refine ⟨⟨by decide, ?_⟩, ?_, ?_, ?_, ?_, fun d => hd d ▸ reset_drive_slotsIn 0 true⟩ <;> simp [State.reset, Engine.reset, Solver.reset]
theorem reset_lawful : State.reset.board.ts.ordered ∧ State.reset.board.re.lawful := by
  unfold Store.ordered Engine.lawful
  decide +kernel
theorem witness_TablesInRange :
    State.reset.board.inRange ∧ State.reset.board.slotsIn ∧ State.reset.board.ts.ordered ∧
      State.reset.board.re.lawful ∧ step State.reset = .next (tick State.reset) :=
  ⟨reset_inRange, reset_slotsIn, reset_lawful.1, reset_lawful.2, rfl⟩
theorem witness_TablesInRange_slot :
    ∀ slot ∈ [0, 1],
      let b := withEntry (entry0 addr5 .placed) State.reset.board
      b.ts.ordered ∧ (b.ts.dir.map (·.slot)).Nodup ∧ ∀ e ∈ b.ts.dir, e.slot = slot → e.addr = addr5 := by
  unfold Store.ordered
  decide +kernel

theorem witness_CellReadWrite : dramWf [(509951, { data := 1, wrong := 0 })] = true ∧ (0 : Nat) ≠ 509951 := by decide +kernel

theorem witness_ByteReceived_phase :
    ∀ p ∈ [FramerPhase.hunt, .kind, .tag, .payload, .check, .broken],
      let f := (lnk fun l => { l with framer := { l.framer with phase := p } }).link.framer
      f.phase = p ∧ f.checkHigh = none := by decide +kernel
theorem witness_ByteReceived_length :
    ∀ high ∈ [none, some 1, some 2], ∀ x ∈ [(0 : Byte), 1],
      let f := (lnk fun l => { l with framer := { l.framer with phase := .length, lenHigh := high } }).link.framer
      f.phase = .length ∧ f.lenHigh = high ∧
        (high = some 2 → ((2 : Byte).toNat * 256 + x.toNat ≤ 512 ↔ x = 0)) := by decide +kernel
theorem witness_ByteReceived_faults :
    let s := at_ 20001 (lnk fun l => { l with framer := { l.framer with phase := .kind, lastByte := some 0 } })
    s.link.framer.phase ≠ .hunt ∧ s.link.framer.phase ≠ .broken ∧ s.link.framer.lastByte = some 0 ∧
      20000 < (s.board.now - 0).toNat := by decide +kernel

/-- A frame whose first check byte 0 has been taken, with a kind and running check. -/
def frameEnd (kind : Byte) (check : Word) (l : Link) : Link :=
  { l with framer := { l.framer with phase := .check, checkHigh := some 0, kind := some kind, tag := some 7,
                                     length := some 0, check := check } }
theorem witness_FrameReceived :
    ∀ kind ∈ [0x00, 0x01, 0x3F, 0x40], ∀ check ∈ [0x00C6, 0x00C7], ∀ n ∈ [3, 4], ∀ busy ∈ [3, 4],
      let s := lnk fun l => frameEnd kind check { l with
        queue := List.replicate n ⟨1, 7, []⟩,
        replies := List.replicate busy ⟨0x81, 7, ⟨.busy, false, []⟩⟩ }
      s.link.framer.phase = .check ∧ s.link.framer.checkHigh = some 0 ∧ s.link.framer.kind = some kind ∧
        s.link.framer.tag = some 7 := by
  intro _ _ _ _ _ _ _ _
  exact ⟨rfl, rfl, rfl, rfl⟩

theorem witness_LineBreak_first :
    let s := asked 1 []
    s.link.framer.phase ≠ .broken ∧ s.link.restart = .none ∧ s.link.sendingHand = false := by decide +kernel
theorem witness_LineBreak_second :
    (lnk fun l => { l with framer := { l.framer with phase := .broken } }).link.framer.phase = .broken := rfl

theorem witness_Transmitter :
    (lnk fun l => { l with restart := .due }).link.restart = .due ∧ State.reset.link.tx = none ∧
      State.reset.link.restart ≠ .due ∧ State.reset.link.replies = [] ∧
      State.reset.link.notices = startNotice false 1 0 true 0 :: [] := by decide +kernel
theorem witness_Transmitter_reply :
    let l := (lnk fun l => { l with replies := [⟨0x81, 7, ⟨.ok, false, []⟩⟩] }).link
    l.tx = none ∧ l.restart ≠ .due ∧ l.replies = ⟨0x81, 7, ⟨.ok, false, []⟩⟩ :: [] := by decide +kernel
theorem witness_Transmitter_nothing :
    let l := (lnk fun l => { l with notices := [] }).link
    l.tx = none ∧ l.restart ≠ .due ∧ l.replies = [] ∧ l.notices = [] := by decide +kernel

theorem witness_Restart : (asked 0x19 []).inHand 0x19 [] := asked_inHand _ _ _ rfl rfl (by decide +kernel)
theorem witness_Restart_due :
    let s := lnk fun l => { l with restart := .due }
    s.link.restart = .due ∧ (∀ op ∈ s.board.ts.ops, (∀ d, op.kind ≠ .commit d) ∧ ∀ a n, op.kind ≠ .copy a n) ∧
      (s.board.drv 0).da.owner.engine = false := ⟨rfl, by simp [lnk, State.reset], by decide +kernel⟩
theorem witness_Restart_engine :
    let s := { lnk fun l => { l with restart := .due } with
      board := (arb0 fun da => { da with owner := .enginePass }).board }
    s.link.restart = .due ∧ s.board.ts.ops = [] ∧ (s.board.drv 0).da.owner.engine = true := by decide +kernel

/-- What a command that LP starts asks of the drive. -/
abbrev starts0 (s : State) : Prop :=
  (s.board.drv 0).lp.cmd.phase = .none ∧ (s.board.drv 0).da.owner = .liveIdle ∧
    (s.board.drv 0).da.share.mode ≠ .salvageOnly

theorem witness_SeekStarts : starts0 State.reset := by decide +kernel
theorem witness_SeekStarts_pressing :
    let s := brd fun b => ({ withJob { salv0 .waiting [] with level := .pressing } b with
      exam := false } : Board).modRt 0 fun rt => { rt with doubt := false }
    starts0 s ∧ s.board.pressing 0 = true := by decide +kernel

/-- The live position at the track of addr5, established. -/
def atTrack (lp : LivePath) : LivePath := { lp with pos := { cyl := 203, head := 1, established := true } }

theorem witness_ReadStarts_beyond :
    starts0 State.reset ∧ (State.reset.board.drv 0).lp.pos.established = false := by decide +kernel
theorem witness_ReadStarts_emit :
    let s := brd fun b => (withEntry (entry0 addr5 .placed) b).modLp 0 fun lp =>
      { atTrack lp with sub := true, buf := { state := .valid, addr := addr5, image := [] } }
    starts0 s ∧ (withinProfile (s.board.drv 0).profile 203 1 5 && (s.board.drv 0).lp.pos.established) = true ∧
      (s.board.drv 0).lp.buf.state = .valid ∧ (s.board.drv 0).lp.buf.addr = addr5 ∧
      s.board.ts.entry addr5 = some (entry0 addr5 .placed) ∧
      (entry0 addr5 .placed).serves (s.board.drv 0).lp.sub (s.board.drv 0).lp.grade = true := by decide +kernel
theorem witness_ReadStarts_fill :
    let s := brd fun b => (withEntry (entry0 addr5 .placed) b).modLp 0 fun lp => { atTrack lp with sub := true }
    let lp := (s.board.drv 0).lp
    starts0 s ∧ (withinProfile (s.board.drv 0).profile 203 1 5 && lp.pos.established) = true ∧
      s.board.ts.entry addr5 = some (entry0 addr5 .placed) ∧
      (entry0 addr5 .placed).serves lp.sub lp.grade = true ∧ lp.buf.state ≠ .absorbing ∧ lp.buf.state ≠ .valid ∧
      s.board.ts.ops = [] ∧ ∀ p ∈ s.board.ts.keep, p.2 = .draining → s.board.ts.slotHeld p.1 = true := by decide +kernel
theorem witness_ReadStarts_relay :
    let s := liv0 atTrack
    starts0 s ∧ (withinProfile (s.board.drv 0).profile 203 1 5 && (s.board.drv 0).lp.pos.established) = true ∧
      s.board.ts.entry addr5 = none ∧ s.board.captureJob addr5 = none := by decide +kernel

theorem witness_WriteStarts : starts0 State.reset ∧ starts0 (liv0 atTrack) := by decide +kernel

/-- The premise of CommandHeld at drive 0. -/
abbrev holds0 (s : State) : Prop :=
  (s.board.drv 0).lp.cmd.phase = .none → (s.board.drv 0).da.share.mode ≠ .salvageOnly →
    (s.board.drv 0).da.owner ≠ .liveIdle
theorem witness_CommandHeld :
    (∀ o ∈ [.liveBusy, .taking, .enginePosition, .enginePass, .engineRestore, .offline],
      holds0 (arb0 fun da => { da with owner := o })) ∧
    holds0 (arb0 fun da => { da with share := { da.share with mode := .salvageOnly } }) ∧
    holds0 (liv0 fun lp => { lp with cmd := { lp.cmd with phase := .held } }) := by decide +kernel

/-- A diversion of addr5 to slot 0. -/
def div0 : Diversion :=
  { target := addr5, slot := 0, volume := 291, header := buildHeader addr5 291, gate := true, committing := false,
    image := [], cleared := false }

theorem witness_BusClear :
    let s := drv0 fun x => { x with
      lp := { x.lp with cmd := { x.lp.cmd with phase := .held, cmd := some (.read 5) }, seOver := true },
      da := { x.da with owner := .enginePosition, held := true, holdStart := some 0, preempted := true } }
    (∀ d, (s.board.drv d).lp.diversion = none ∧ (s.board.drv d).lp.cmd.phase ≠ .awaitingSlot ∧
      (s.board.drv d).lp.cmd.phase ≠ .transfer) ∧
    s.board.ts.ops = [] ∧ s.board.ts.keep = [] := by decide +kernel
/-- Drive 0 at a BUS CLEAR with a live command in its slot or waiting for it, its gate up and its channel set up. -/
def cleared0 (p : Phase) (dv : Option Diversion) (x : Drive) : Drive :=
  { x with
    lp := { x.lp with cmd := { x.lp.cmd with phase := p, cmd := some (.read 5), target := addr5 }, gate := true,
                      emission := if dv.isNone then some [] else none, diversion := dv },
    rc := { x.rc with activity := .hunting, slotNo := 5,
                      setup := .live { cyl := 203, head := 1, sector := 5, capture := none } },
    da := { x.da with owner := .liveBusy } }

/-- The premises of the clause of BusClear on one drive, for drive 0. -/
abbrev clears0 (b : Board) : Prop :=
  let x := b.drv 0
  b.exam = false ∧ b.filing = none ∧ x.lp.autoWait = false ∧ (x.lp.gate = false ∨ x.lp.releases = false) ∧
    x.rc.setup = .live { cyl := 203, head := 1, sector := 5, capture := none } ∧ x.rc.slotBuf = none ∧
    x.rc.activity ≠ .complete ∧
    (x.lp.cmd.phase = .awaitingSlot ∨ x.lp.cmd.phase = .transfer → x.da.owner = .liveBusy ∧ x.da.share.pending = none) ∧
    (∀ op ∈ b.ts.ops, op.kind = .fill 0 → op.wrote = []) ∧ ∀ p ∈ b.ts.keep, p.2 ≠ .draining

theorem witness_BusClear_live :
    ∀ p ∈ [Phase.awaitingSlot, .transfer, .seeking, .held],
      let b := (brd fun b => (withOps [doneOp (.fill 0) 0] b).modDrv 0 (cleared0 p none)).board
      clears0 b ∧ (b.drv 0).lp.cmd.phase = p ∧ (b.drv 0).lp.diversion = none := by decide +kernel
theorem witness_BusClear_diversion :
    ∀ committing ∈ [true, false], ∀ entry ∈ [true, false],
      let v := { div0 with committing := committing }
      let b := (brd fun b =>
        (if entry then withEntry (entry0 addr5 .placed) b else b).modDrv 0 (cleared0 .transfer (some v))).board
      clears0 b ∧ (b.drv 0).lp.cmd.phase = .transfer ∧ (b.drv 0).lp.diversion = some v ∧ v.committing = committing ∧
        (b.drv 0).lp.emission = none ∧ (b.ts.entry v.target).any (·.slot = v.slot) = entry ∧ b.noAuto ∧
        b.ts.slotHeld v.slot = false ∧ ∀ e, e ≠ 0 → (b.drv e).lp.diversion = none := by decide +kernel

/-- The live path in the slot of a WRITE of sector 5 on a course, its target released or not. -/
def writing0 (c : Course) (releases : Bool) (lp : LivePath) : LivePath :=
  { lp with cmd := { lp.cmd with phase := .transfer, course := c, cmd := some (.write 5), target := addr5 },
            releases := releases }

/-- The port with its gate line and LP's own gate up. -/
def gateUp (x : Drive) : Drive := { x with pins := { x.pins with ctrlGate := true }, lp := { x.lp with gate := true } }

/-- No operation holds a slot and no slot drains. -/
abbrev still (s : State) : Prop :=
  s.board.ts.ops = [] ∧ ∀ p ∈ s.board.ts.keep, p.2 = .draining → s.board.ts.slotHeld p.1 = true

theorem witness_WriteGate_release :
    let s := brd fun b => (withEntry (entry0 addr5 .placed) b).modLp 0 (writing0 .pass false)
    let x := s.board.drv 0
    x.pins.ctrlGate = false ∧ x.lp.cmd.passes = true ∧ x.lp.cmd.course = .pass ∧ x.lp.releases = false ∧
      x.lp.cmd.target.drive = 0 ∧ x.lp.emission = none ∧ still s ∧ s.board.trackJob addr5.track = none ∧
      s.quiet ∧ s.board.ts.entry x.lp.cmd.target = some (entry0 addr5 .placed) := by decide +kernel
theorem witness_WriteGate_pass :
    ∀ p ∈ [(Course.plain, false), (.pass, true)],
      let s := liv0 (writing0 p.1 p.2)
      let x := s.board.drv 0
      x.pins.ctrlGate = false ∧ x.lp.cmd.passes = true ∧ s.board.trackJob x.lp.cmd.target.track = none ∧
        s.quiet ∧ (x.lp.cmd.course = .plain ∨ x.lp.releases = true) := by decide +kernel
theorem witness_WriteGate_job :
    ∀ p ∈ [(Course.plain, false), (.pass, false), (.pass, true)],
      let s := brd fun b => (withJob (salv0 .waiting []) b).modLp 0 (writing0 p.1 p.2)
      let x := s.board.drv 0
      x.pins.ctrlGate = false ∧ x.lp.cmd.passes = true ∧
        s.quiet ∧ s.board.trackJob x.lp.cmd.target.track = some (salv0 .waiting []) := by decide +kernel
theorem witness_WriteGate_divert :
    let s := liv0 fun lp => { lp with diversion := some { div0 with gate := false } }
    let x := s.board.drv 0
    s.quiet ∧ x.pins.ctrlGate = false ∧ x.lp.cmd.passes = false ∧ x.lp.diversion.isSome = true := by decide +kernel
theorem witness_WriteGate_drop :
    ∀ releases ∈ [false, true],
      let s := brd fun b =>
        (withEntry (entry0 addr5 .placed) b).modDrv 0 fun x => gateUp { x with lp := writing0 .pass releases x.lp }
      let x := s.board.drv 0
      x.pins.ctrlGate = true ∧ x.lp.gate = true ∧ x.lp.diversion = none ∧ s.board.filing = none ∧
        x.lp.autoWait = false ∧ x.lp.releases = releases ∧ x.lp.cmd.target.drive = 0 ∧ x.lp.emission = none ∧
        s.quiet ∧ x.lp.cmd.phase = .transfer ∧ still s := by decide +kernel
theorem witness_WriteGate_abandon :
    ∀ committing ∈ [false, true],
      let v := { div0 with committing := committing }
      let s := drv0 fun x => { x with pins := { x.pins with ctrlGate := true }, lp := { x.lp with diversion := some v } }
      let x := s.board.drv 0
      x.pins.ctrlGate = true ∧ x.lp.gate = false ∧ x.lp.diversion = some v ∧ v.committing = committing ∧
        s.quiet ∧ ∀ e, e ≠ 0 → (s.board.drv e).lp.diversion = none := by decide +kernel

theorem witness_AbsorptionComplete :
    let s := liv0 fun lp => { lp with diversion := some div0 }
    (s.board.drv 0).lp.diversion = some div0 ∧ div0.gate = true ∧ div0.committing = false := by decide +kernel

/-- The board as the commit of a diversion of addr5 in slot 0 ends, with what else stands on it. -/
def committed0 (cleared : Bool) (f : Board → Board) : State :=
  brd fun b => (f (withOps [doneOp (.commit 0) 0] b)).modLp 0 fun lp =>
    { lp with diversion := some { div0 with cleared := cleared },
              buf := { state := .absorbing, addr := addr5, image := [] } }

/-- The premises common to the clauses of CommitComplete at drive 0. -/
abbrev commits0 (dv : Diversion) (s : State) : Prop :=
  let op := doneOp (.commit 0) 0
  let x := s.board.drv 0
  s.quiet ∧ s.board.re.lawful ∧
    s.board.ts.ops = [op] ∧ op.kind = .commit 0 ∧ op.todo = [] ∧ op.spoiled = false ∧ x.lp.diversion = some dv ∧
    dv.target.drive = 0 ∧ x.lp.buf.addr = dv.target ∧ x.lp.buf.state = .absorbing ∧
    (∀ p ∈ s.board.ts.keep, p.2 ≠ .draining) ∧ ∀ e, e ≠ 0 → (s.board.drv e).lp.diversion = none

/-- The live path and the owner of drive 0 with a diverted WRITE still in its slot, or over. -/
def divertedBy (writing : Bool) (b : Board) : Board :=
  if writing then
    b.modDrv 0 fun x => { x with lp := writing0 .divert false x.lp, da := { x.da with owner := .liveBusy } }
  else b

/-- Which end of the command the clauses of CommitComplete take at drive 0. -/
abbrev endsAs (writing : Bool) (s : State) : Prop :=
  let x := s.board.drv 0
  (writing = true ∧ x.lp.cmd.phase = .transfer ∧ x.lp.cmd.course = .divert ∧ x.da.owner = .liveBusy ∧
    x.da.share.pending = none) ∨ (writing = false ∧ x.lp.cmd.phase ≠ .transfer)

theorem witness_CommitComplete_plain :
    ∀ cleared ∈ [false, true],
      let s := committed0 cleared id
      commits0 { div0 with cleared := cleared } s ∧ s.board.trackJob addr5.track = none ∧
        (s.board.drv 0).lp.cmd.phase = .none := by decide +kernel
theorem witness_CommitComplete_old :
    let s := committed0 false fun b =>
      { b with ts := { b.ts with dir := [{ entry0 addr5 .placed with slot := 3 }], keep := [(0, .held), (3, .entry)] } }
    commits0 div0 s ∧ s.board.trackJob addr5.track = none ∧
      (s.board.ts.entry div0.target).any (·.slot ≠ div0.slot) = true := by decide +kernel
theorem witness_CommitComplete_transfer :
    let s := committed0 false (divertedBy true)
    commits0 div0 s ∧ s.board.trackJob addr5.track = none ∧ endsAs true s := by decide +kernel
theorem witness_CommitComplete_relay :
    ∀ p ∈ [(JobState.waiting, RelayStep.write), (.waiting, .verify), (.active, .write)], ∀ w ∈ [false, true],
      let j := { job0 .relay p.1 [] with relayStep := p.2 }
      let s := committed0 false fun b => divertedBy w (withJob j b)
      commits0 div0 s ∧ s.board.trackJob addr5.track = some j ∧ j.kind = .relay ∧ endsAs w s := by decide +kernel
set_option synthInstance.maxSize 512 in
theorem witness_CommitComplete_salvage :
    let j := { salv0 .waiting [] with sectors := [{ sector0 5 [] with slot := some 7 }, { sector0 6 [] with slot := some 8 }] }
    let r := { sector0 5 [] with slot := some 7 }
    ∀ w ∈ [false, true],
      let s := committed0 false fun b => divertedBy w (withJob j b)
      commits0 div0 s ∧ s.board.trackJob addr5.track = some j ∧ j.kind = .salvage ∧ j.state ≠ .settling ∧
        s.board.job j.serial = some j ∧ j.sectorRec addr5.sector.val = some r ∧ r.status.unresolved = true ∧
        (∃ q ∈ j.sectors, q.sector ≠ r.sector ∧ q.status.unresolved = true) ∧ s.board.su.flight = none ∧
        endsAs w s := by decide +kernel

theorem witness_SlotWaitEnds_emission :
    let s := liv0 fun lp => { lp with emission := some [] }
    (s.board.drv 0).lp.emission ≠ none ∧ (s.board.drv 0).lp.bufChanged = false := by decide +kernel
theorem witness_SlotWaitEnds_timeout :
    let s := at_ 50000 (drv0 fun x => { x with
      lp := { x.lp with cmd := { x.lp.cmd with phase := .awaitingSlot, limit := 50000 } },
      da := { x.da with owner := .liveBusy } })
    let x := s.board.drv 0
    x.lp.cmd.phase = .awaitingSlot ∧ x.lp.cmd.limit ≤ (s.board.now - x.lp.cmd.started).toNat ∧
      x.rc.setup = .none ∧ x.da.owner = .liveBusy ∧ x.da.share.pending = none := by decide +kernel
theorem witness_SlotWaitEnds_relay :
    let s := arb0 fun da => { da with writing := some 3, writeImage := exImage }
    (s.board.drv 0).da.writing ≠ none ∧ (s.board.drv 0).da.stopAtEnd = false ∧
      (s.board.drv 0).da.writeImage.length = 131 ∧ (State.reset.board.drv 0).da.writing = none := by decide +kernel
theorem test_relay_cells :
    let x := (arb0 fun da => { da with writing := some 5, writeImage := exImage }).board.drv 0
    x.writes.length = 2129 ∧ (x.writes.drop 32).take 17 =
      [true, false, true, true, false, false, true, false, true, true, false, true, false, false, false, false, false] := by
  decide +kernel

/-- A READ of sector 5 on a course that waits for its slot, one pulse before it. -/
def reading0 (c : Course) (x : Drive) : Drive :=
  { x with
    rt := { x.rt with position := 4 },
    lp := { x.lp with cmd := { x.lp.cmd with phase := .awaitingSlot, cmd := some (.read 5), target := addr5, course := c } },
    da := { x.da with owner := .liveBusy } }

/-- The premises common to the opening pulses of SlotWaitEnds at drive 0. -/
abbrev readOpens0 (c : Course) (s : State) : Prop :=
  let x := s.board.drv 0
  x.rc.activity = .idle ∧ x.da.owner = .liveBusy ∧ x.lp.cmd.phase = .awaitingSlot ∧ x.lp.cmd.cmd = some (.read 5) ∧
    x.lp.cmd.target.sector.val = (x.rt.advance x.profile.sectors).position ∧ x.lp.cmd.course = c

theorem witness_SlotWaitEnds_plain : readOpens0 .plain (drv0 (reading0 .plain)) := by decide +kernel
theorem witness_SlotWaitEnds_emit :
    let s := drv0 fun x => reading0 .emit { x with lp := { x.lp with buf := { state := .valid, addr := addr5, image := [] } } }
    readOpens0 .emit s ∧ (s.board.drv 0).lp.buf.state = .valid ∧ (s.board.drv 0).lp.buf.addr = addr5 := by decide +kernel
theorem witness_SlotWaitEnds_late :
    let op := { doneOp (.fill 0) 0 with todo := [.read 0 0] }
    let s := brd fun b => (withOps [op] b).modDrv 0 fun x => reading0 .emit { x with
      lp := { x.lp with buf := { state := .filling, addr := addr5, image := [] } } }
    readOpens0 .emit s ∧ (s.board.drv 0).lp.buf.state = .filling ∧ s.board.captureJob addr5 = none ∧
      s.board.ts.ops = [op] ∧ op.wrote = [] ∧ ∀ p ∈ s.board.ts.keep, p.2 ≠ .draining := by decide +kernel
theorem witness_SlotWaitEnds_hunt :
    let ls : LiveSetup := { cyl := 203, head := 1, sector := 5, capture := none }
    let s := drv0 fun x => reading0 .relay { x with rc := { x.rc with setup := .live ls } }
    readOpens0 .relay s ∧ (s.board.drv 0).rc.setup = .live ls ∧ ls.sector = addr5.sector.val ∧ ls.capture = none := by
  decide +kernel

theorem witness_LiveSeekEnds :
    let s := drv0 fun x => { x with
      lp := { x.lp with seeking := true, cmd := { x.lp.cmd with phase := .seeking } },
      da := { x.da with owner := .liveBusy } }
    (s.board.drv 0).lp.seeking = true ∧ (s.board.drv 0).lp.cmd.phase = .seeking ∧
      (s.board.drv 0).da.owner = .liveBusy := by decide +kernel
theorem witness_LiveSeekEnds_view :
    ∀ o ∈ [.enginePosition, .enginePass, .engineRestore, .liveIdle, .liveBusy, .taking, .offline],
      ((arb0 fun da => { da with owner := o }).board.drv 0).da.owner = o := by decide +kernel

theorem witness_ReadyLine_drop :
    let x := State.reset.board.drv 0
    x.pins.ready = true ∧ x.da.owner.engine = false ∧ x.lp.cmd.phase ≠ .awaitingSlot ∧
      x.lp.cmd.phase ≠ .transfer ∧ x.rc.setup = .none ∧ x.rc.activity = .idle := by decide +kernel
theorem witness_ReadyLine_away :
    let s := at_ 10000001 (brd fun b => { b with drives := b.drives.set 0 (.reset 0 false) })
    let x := s.board.drv 0
    x.pins.ready = false ∧ x.da.offlineStart = some 0 ∧ x.da.owner = .offline ∧ x.da.lost = false ∧
      10000000 < (s.board.now - 0).toNat ∧ (∀ j ∈ s.board.re.jobs, j.drive ≠ 0) := by decide +kernel

theorem witness_SectorPulseCounts :
    ∀ p ∈ [0, 12, 13],
      let s := trk0 fun rt => { rt with position := p }
      let x := s.board.drv 0
      s.quiet ∧ x.rc.activity = .idle ∧ x.lp.cmd.phase ≠ .transfer ∧ x.lp.cmd.phase ≠ .awaitingSlot ∧
        x.da.owner ≠ .enginePass := by decide +kernel

/-- The premises common to the closing pulses of SectorPulseCounts at drive 0. -/
abbrev closes0 (x : Drive) : Prop :=
  x.lp.cmd.phase = .transfer ∧ x.da.owner = .liveBusy ∧ x.da.share.pending = none

theorem witness_SectorPulseCounts_closing :
    ∀ c ∈ [Course.relay, .protect, .refuse, .plain, .pass, .emit, .divert],
      let v := { div0 with committing := true }
      let s := drv0 fun x =>
        { x with lp := { writing0 c false x.lp with diversion := some v }, da := { x.da with owner := .liveBusy } }
      let x := s.board.drv 0
      s.quiet ∧ closes0 x ∧ x.rc.activity = .idle ∧ x.lp.cmd.course = c ∧ x.lp.gate = false ∧ s.board.filing = none ∧
        x.lp.autoWait = false ∧ x.lp.bufChanged = false ∧ x.lp.diversion = some v ∧ v.committing = true := by
  decide +kernel

/-- The channel with the image of a slot read to its end in CHECK mode. -/
def readDone (slot : Nat) (found sound : Bool) (o : HeaderOutcome) (rc : Channel) : Channel :=
  { rc with activity := .complete, slotNo := slot, found := found, sound := sound,
            header := some (o, ⟨203, 1, 0, slot, 291⟩) }

/-- Drive 0 with a relayed READ of sector 5 in its slot, read in CHECK mode. -/
def relayed0 (rc : Channel → Channel) : State :=
  drv0 fun x => { x with
    lp := writing0 .relay false x.lp, da := { x.da with owner := .liveBusy },
    rc := { rc x.rc with setup := .live { cyl := 203, head := 1, sector := 5, capture := none } } }

/-- The premises common to the reports of SectorPulseCounts at drive 0. -/
abbrev reports0 (s : State) : Prop :=
  let x := s.board.drv 0
  s.quiet ∧ closes0 x ∧ x.rc.setup = .live { cyl := 203, head := 1, sector := 5, capture := none } ∧
    x.lp.cmd.course = .relay ∧ x.rc.activity ≠ .idle ∧ x.rc.slotBuf = none ∧ s.board.trackJob addr5.track = none ∧
    s.board.re.suspects = []

theorem witness_SectorPulseCounts_report :
    ∀ q ∈ [(true, HeaderOutcome.matched), (true, .volume), (false, .matched)],
      let s := relayed0 (readDone 5 true q.1 q.2)
      let rc := (s.board.drv 0).rc
      reports0 s ∧ rc.activity = .complete ∧ rc.found = true ∧ rc.sound = q.1 ∧
        rc.header = some (q.2, ⟨203, 1, 0, 5, 291⟩) := by decide +kernel
theorem witness_SectorPulseCounts_noImage :
    ∀ a ∈ [Activity.complete, .hunting, .reading],
      let s := relayed0 fun rc => { rc with activity := a, slotNo := 5 }
      let rc := (s.board.drv 0).rc
      reports0 s ∧ ¬ (rc.activity = .complete ∧ rc.found = true) ∧ rc.header = none := by decide +kernel

/-- Drive 0 in an engine pass with the slots of job 1 that have been seen, one pulse before sector 5. -/
def passing0 (kind : PassKind) (slots : Nat) (x : Drive) : Drive :=
  { x with rt := { x.rt with position := 4 },
           da := { x.da with owner := .enginePass, passKind := some kind, slots := slots, served := some ⟨0, 1⟩ } }

/-- The set-up of a pass over the track of addr5 that checks the listed sectors. -/
def checking (tag : PassTag) (sectors : List Nat) : PassSetup :=
  { cyl := 203, head := 1, shift := 0, tag := tag, passNo := 1,
    plans := sectors.map fun k => { sector := k, capture := none, acted := false } }

/-- The premises common to the engine's pulses of SectorPulseCounts at drive 0. -/
abbrev passes0 (ps : PassSetup) (x : Drive) : Prop :=
  x.lp.cmd.phase ≠ .transfer ∧ x.lp.cmd.phase ≠ .awaitingSlot ∧ x.da.owner = .enginePass ∧
    x.da.passKind = some .read ∧ x.da.atBoundary = false ∧ x.da.stopAtEnd = false ∧
    x.da.slots < x.profile.sectors ∧ x.rc.setup = .pass ps ∧ x.rc.slotBuf = none

theorem witness_SectorPulseCounts_pass :
    ∀ tag ∈ [PassTag.survey, .verify], ∀ slots ∈ [0, 13], ∀ sectors ∈ [[], [5]],
      let s := drv0 fun x => passing0 .read slots { x with rc := { x.rc with setup := .pass (checking tag sectors) } }
      let x := s.board.drv 0
      s.quiet ∧ passes0 (checking tag sectors) x ∧ x.rc.activity = .idle ∧ x.da.served = some ⟨0, 1⟩ ∧
        (checking tag sectors).plans.find? (fun p => p.sector = 5 && !p.acted) =
          sectors.head?.map fun k => { sector := k, capture := none, acted := false } := by decide +kernel
theorem witness_SectorPulseCounts_slot :
    ∀ tag ∈ [PassTag.survey, .verify], ∀ sound ∈ [true, false],
      let s := drv0 fun x => passing0 .read 1 { x with
        rc := { readDone 4 true sound .matched x.rc with setup := .pass (checking tag [5]) } }
      let x := s.board.drv 0
      s.quiet ∧ passes0 (checking tag [5]) x ∧ x.rc.activity = .complete ∧ x.rc.found = true ∧ x.rc.sound = sound ∧
        x.rc.header = some (.matched, ⟨203, 1, 0, 4, 291⟩) ∧ (checking tag [5]).tag = tag := by decide +kernel

/-- A WRITE of sector 5 that waits for its slot, one pulse before it. -/
def waiting0 (b : Board) : Board :=
  b.modDrv 0 fun x => { x with
    rt := { x.rt with position := 4 },
    lp := { x.lp with cmd := { x.lp.cmd with phase := .awaitingSlot, cmd := some (.write 5), target := addr5 } },
    da := { x.da with owner := .liveBusy } }

/-- The premises of WriteSlotOpens at drive 0. -/
abbrev opens0 (s : State) : Prop :=
  let x := s.board.drv 0
  x.rc.activity = .idle ∧ x.da.owner = .liveBusy ∧ x.lp.cmd.phase = .awaitingSlot ∧
    x.lp.cmd.cmd = some (.write 5) ∧
    x.lp.cmd.target.sector.val = (x.rt.advance x.profile.sectors).position ∧
    (∀ op ∈ s.board.ts.ops, ∀ d, op.kind ≠ .fill d) ∧
    (∀ p ∈ s.board.ts.keep, p.2 = .draining → s.board.ts.slotHeld p.1 = true)

theorem witness_WriteSlotOpens_pass :
    let s := brd waiting0
    opens0 s ∧ (s.board.drv 0).lp.cmd.beyond = false ∧ (s.board.drv 0).lp.diversion = none ∧
      s.board.guarded addr5 = false := by decide +kernel
theorem witness_WriteSlotOpens_beyond :
    ∀ job ∈ [true, false],
      let s := brd fun b => (waiting0 (if job then withJob (salv0 .waiting []) b else b)).modLp 0 fun lp =>
        { lp with cmd := { lp.cmd with beyond := true } }
      opens0 s ∧ (s.board.drv 0).lp.cmd.beyond = true ∧ (s.board.trackJob addr5.track).isSome = job := by
  decide +kernel
theorem witness_WriteSlotOpens_committing :
    let s := brd fun b => (waiting0 (withEntry (entry0 addr5 .placed) b)).modLp 0 fun lp =>
      { lp with divert := true, diversion := some { div0 with committing := true } }
    opens0 s ∧ (s.board.drv 0).lp.cmd.beyond = false ∧ (s.board.drv 0).lp.diversion ≠ none ∧
      s.board.guarded addr5 = true := by decide +kernel
theorem witness_WriteSlotOpens_entry :
    let s := brd fun b => (waiting0 (withEntry (entry0 addr5 .placed) b)).modLp 0 fun lp => { lp with divert := true }
    opens0 s ∧ s.board.guarded addr5 = true ∧ (s.board.drv 0).lp.divert = true ∧
      s.board.ts.entry addr5 = some (entry0 addr5 .placed) := by decide +kernel
theorem witness_WriteSlotOpens_free :
    let s := brd fun b =>
      (waiting0 (withJob (salv0 .waiting []) (storeReady b))).modLp 0 fun lp => { lp with divert := true }
    opens0 s ∧ s.board.guarded addr5 = true ∧ (s.board.drv 0).lp.divert = true ∧
      s.board.ts.entry addr5 = none ∧ s.board.ts.freeKeepSlot = some 0 := by decide +kernel
theorem witness_WriteSlotOpens_off :
    let s := brd fun b => waiting0 (withJob (salv0 .waiting []) b)
    opens0 s ∧ s.board.guarded addr5 = true ∧ (s.board.drv 0).lp.divert = false ∧
      (s.board.trackJob addr5.track).isSome = true := by decide +kernel

theorem witness_IndexAndWatchdog_searching : (State.reset.board.drv 0).rt.state = .searching := rfl
theorem witness_IndexAndWatchdog_back :
    let x := (trk0 fun rt => { rt with state := .freeRun, lastIndex := some 0, position := 13 }).board.drv 0
    x.rt.state = .freeRun ∧ x.rt.lastIndex = some 0 ∧ x.rt.position + 1 = x.profile.sectors := by decide +kernel
/-- Drive 0 in LOCKED at a position, all of its periods alike, one of them more after the last index. -/
def locked0 (position : Nat) (doubt : Bool) (inBand period : Nat) : State :=
  at_ period (trk0 fun rt =>
    { rt with state := .locked, lastIndex := some 0, position := position, doubt := doubt, inBand := inBand,
              history := List.replicate 8 period })

theorem witness_IndexAndWatchdog_locked :
    ∀ position ∈ [0, 6, 7, 13], ∀ period ∈ [25750, 25751], ∀ run ∈ [6, 7, 8],
      let s := locked0 position (run < 8) run period
      let x := s.board.drv 0
      let history := (x.rt.history ++ [(s.board.now - 0).toNat]).drop (x.rt.history.length - 7)
      x.rt.state = .locked ∧ x.rt.lastIndex = some 0 ∧ x.rt.history.length ≤ 8 ∧ history.length = 8 ∧
        (period = 25750 → x.profile.inSpeedBand (history.sum / 8) = true ∧
          x.profile.inSpeedBand (s.board.now - 0).toNat = true) ∧
        (period = 25751 → x.profile.inSpeedBand (history.sum / 8) = false) ∧
        (x.rt.doubt = true ↔ run < 8) ∧ (x.rt.position + 1 ≠ x.profile.sectors ↔ position ≠ 13) := by decide +kernel
theorem witness_IndexAndWatchdog_slip :
    ∀ p ∈ [0, 6, 7, 12],
      let x := (trk0 fun rt => { rt with state := .freeRun, lastIndex := some 0, position := p }).board.drv 0
      x.rt.state = .freeRun ∧ x.rt.lastIndex = some 0 ∧ x.rt.position + 1 ≠ x.profile.sectors := by decide +kernel
theorem witness_IndexAndWatchdog_taking :
    let s := { locked0 13 true 7 25000 with
      board := (withJob { salv0 .waiting [] with level := .pressing } (locked0 13 true 7 25000).board).modDa 0 fun da =>
        { da with owner := .liveBusy } }
    let x := s.board.drv 0
    x.rt.doubt = true ∧ x.da.owner = .liveBusy ∧ x.da.share.mode = .liveFirst ∧
      (s.board.re.jobs.any fun j => j.drive = 0 && j.state = .waiting && j.level = .pressing && j.needsPass) = true := by
  decide +kernel
theorem witness_IndexAndWatchdog_expiry :
    ∀ doubt ∈ [true, false],
      let s := at_ 37501 (trk0 fun rt => { rt with state := .locked, lastIndex := some 0, doubt := doubt })
      let x := s.board.drv 0
      x.rt.state = .locked ∧ x.rt.lastIndex = some 0 ∧
        3 * x.rt.average.getD x.profile.period < 2 * (s.board.now - 0).toNat := by decide +kernel

theorem witness_SyncHunt_found :
    let rc := ((chn0 fun rc => { rc with activity := .hunting, cells := 375 }).board.drv 0).rc
    let frames := List.replicate 24 0 ++ [frame [15]]
    rc.activity = .hunting ∧ rc.cells + frames.length ≤ 400 ∧
      syncCell rc.slotShift rc.run rc.cells frames = some (rc.cells + frames.length) := by decide +kernel
theorem witness_SyncHunt_limit :
    let rc := ((chn0 fun rc => { rc with activity := .hunting, cells := 399 }).board.drv 0).rc
    rc.activity = .hunting ∧ rc.cells + [frame [15]].length = 400 ∧
      syncCell rc.slotShift rc.run rc.cells [frame [15]] = none := by decide +kernel
theorem witness_SyncHunt_cell : (24 : Nat) ≤ 24 ∧ syncCell 0 24 0 [frame [15]] = some 1 := by decide +kernel

/-- A drive that reads a slot in CHECK mode, or into a capture buffer. -/
def reading5 (i : Option (Fin 2)) (index : Nat) (header : Option (HeaderOutcome × Header)) : State :=
  drv0 fun x => { x with
    rt := { x.rt with position := 5 },
    rc := { x.rc with activity := .reading, wordIndex := index, slotNo := 5, slotBuf := i, header := header,
                      setup := .live { cyl := 203, head := 1, sector := 5, capture := none } } }

theorem witness_ImageRead_header :
    ∀ i ∈ [none, some 0, some 1],
      let rc := ((reading5 i 0 none).board.drv 0).rc
      rc.activity = .reading ∧ rc.wordIndex = 0 ∧ (List.replicate 32 (frame [15])).length = 32 ∧
        rc.setup.expects = some (203, 1) ∧ rc.slotBuf = i := by decide +kernel
theorem witness_ImageRead_image :
    ∀ p ∈ [((none : Option (Fin 2)), 5), (some 0, 5), (some 1, 6), (none, 13), (none, 14)],
      let h : Header := ⟨203, 1, 0, p.2, 291⟩
      let x := (reading5 p.1 2 (some (.matched, h))).board.drv 0
      x.rc.activity = .reading ∧ x.rc.wordIndex = 2 ∧ (List.replicate 2064 (0 : CellFrame)).length = 2064 ∧
        x.rc.setup.expects = some (203, 1) ∧ x.rc.slotBuf = p.1 ∧ x.rc.header = some (.matched, h) ∧
        x.rt.position = x.rc.slotNo ∧ (((List.replicate 128 0).foldl rotAdd x.rc.check) : Word) = 0 ∧
        ((h.sector < x.profile.sectors ∧ h.sector ≠ x.rc.slotNo) ↔ (p.2 = 6 ∨ p.2 = 13)) := by decide +kernel

theorem witness_MovementTimers_settled :
    let s := at_ 1000 (drv0 fun x => { x with rc := { x.rc with settling := true }, da := { x.da with work := .offsetOff } })
    let x := s.board.drv 0
    x.rc.settling = true ∧ 1000 ≤ (s.board.now - x.rc.offsetAt).toNat ∧ x.da.work = .offsetOff ∧
      x.da.abandon = false ∧ x.da.preempted = false ∧ x.da.headCyl = none := by decide +kernel
theorem witness_MovementTimers_failed :
    ∀ w ∈ [Work.offsetOn, .recal, .seek, .retryRecal], ∀ n ∈ [0, 1],
      let j := { salv0 .active [] with seekFails := n }
      let s := at_ 500000 (brd fun b => (withJob j b).modDrv 0 fun x => { x with
        rc := { x.rc with settling := true }, da := { x.da with work := w, served := some ⟨0, 1⟩ } })
      let x := s.board.drv 0
      x.da.served = some ⟨0, 1⟩ ∧ s.board.job 0 = some j ∧ j.seekFails < 2 ∧ x.da.abandon = false ∧
        x.da.preempted = false ∧ x.da.retryUsed = false ∧ x.rc.settling = true ∧
        100000 ≤ (s.board.now - x.rc.offsetAt).toNat ∧ x.da.work = w ∧
        500000 ≤ (s.board.now - x.da.workAt).toNat := by decide +kernel
theorem witness_MovementTimers_recalEnds :
    ∀ w ∈ [Work.recal, .retryRecal],
      let x := (arb0 fun da => { da with work := w, plan := { da.plan with cyl := 203 } }).board.drv 0
      x.lp.seeking = false ∧ x.da.work = w ∧ x.da.abandon = false ∧ x.da.preempted = false ∧ x.da.plan.cyl ≠ 0 := by
  decide +kernel

/-- A positioning of drive 0 for a job that has failed a number of times, 500 ms after its movement was sent. -/
def failing0 (w : Work) (held used : Bool) (pending : Option ShareMode) (j : Job) : State :=
  at_ 500000 (brd fun b => (withJob j b).modDa 0 fun da =>
    { da with owner := .enginePosition, work := w, served := some ⟨0, 1⟩, retryUsed := used, held := held,
              share := { da.share with pending := pending } })

/-- The premises common to the failures of MovementTimers that end a positioning, at drive 0. -/
abbrev fails0 (j : Job) (s : State) : Prop :=
  let x := s.board.drv 0
  x.da.served = some ⟨0, 1⟩ ∧ s.board.job 0 = some j ∧ x.da.abandon = false ∧ x.da.preempted = false ∧
    (x.da.work = .recal ∨ x.da.work = .seek ∨ x.da.work = .retryRecal) ∧
    500000 ≤ (s.board.now - x.da.workAt).toNat ∧ s.quiet ∧ x.rc.offset = .zero ∧
    (x.da.held = true ∨ x.da.share.pending = some .liveOnly ∨ (x.da.share.pending = none ∧ x.rt.doubt = true))

theorem witness_MovementTimers_abandoned :
    ∀ w ∈ [Work.recal, .seek, .retryRecal], ∀ q ∈ [(true, some ShareMode.salvageFirst), (false, some .liveOnly), (false, none)],
      let j := { salv0 .active [] with seekFails := 1 }
      let s := failing0 w q.1 true q.2 j
      fails0 j s ∧ j.seekFails < 2 ∧ (s.board.drv 0).da.retryUsed = true ∧ j.kind = .salvage ∧
        j.exhausted = false ∧ s.board.re.ladder[j.step]? = some ⟨0, .zero, false, 2⟩ ∧ j.passes < 2 ∧
        ∃ q ∈ j.sectors, q.status.unresolved = true := by decide +kernel
theorem witness_MovementTimers_third :
    ∀ j ∈ [{ salv0 .active [] with seekFails := 2 }, { job0 .relay .active [] with seekFails := 2 }], ∀ used ∈ [true, false],
      let s := failing0 .seek true used none j
      fails0 j s ∧ 2 ≤ j.seekFails ∧ s.board.noAuto ∧ s.board.noSolve j.serial ∧ j.written = false ∧
        (∀ q ∈ j.sectors, q.best = none ∧ q.caps = []) ∧ (∀ q ∈ j.relay, q.aside = none ∧ q.image = none) ∧
        s.board.ts.ops = [] ∧ ∀ e, (s.board.drv e).lp.diversion = none := by
  unfold Board.noSolve
  decide +kernel

theorem witness_MovementTimers_restore :
    ∀ p ∈ [(Work.restoreSeek, false), (.restoreRecal, false), (.restoreSeek, true)],
      let s := at_ 500000 (arb0 fun da => { da with work := p.1, second := p.2 })
      let x := s.board.drv 0
      500000 ≤ (s.board.now - x.da.workAt).toNat ∧ x.da.work = p.1 ∧ x.da.second = p.2 ∧
        x.lp.cmd.phase ≠ .held := by decide +kernel

/-- Drive 0 at a time in a share mode with one job and no speed doubt. -/
def offered (m : ShareMode) (time : Nat) (j : Job) : State :=
  at_ time (brd fun b => (withJob j b).modDrv 0 fun x =>
    { x with rt := { x.rt with doubt := false }, da := { x.da with share := { x.da.share with mode := m } } })

/-- The premises common to the clauses of TakeMade at drive 0. -/
abbrev takes0 (j : Job) (s : State) : Prop :=
  let x := s.board.drv 0
  x.da.owner = .liveIdle ∧ x.rc.offset = .zero ∧ x.da.headCyl = none ∧ s.board.job j.serial = some j ∧
    (∀ i ∈ s.board.re.jobs, i.serial = j.serial → i = j) ∧ j.kind = .salvage ∧
    s.board.re.ladder[j.step]? = some ⟨0, .zero, false, 2⟩

theorem witness_TakeMade_grace :
    ∀ m ∈ [ShareMode.liveFirst, .salvageFirst, .salvageOnly],
      let j := salv0 .waiting []
      let s := offered m 30000 j
      let x := s.board.drv 0
      takes0 j s ∧ s.board.choose 0 = some j ∧ x.da.share.mode = m ∧ x.da.seekFault = false ∧
        s.board.pressing 0 = false ∧ x.da.idleStart = some 0 ∧
        x.da.share.grace * 1000 ≤ (s.board.now - 0).toNat := by decide +kernel
theorem witness_TakeMade_pressing :
    let j := { salv0 .waiting [] with level := .pressing }
    let s := offered .liveFirst 1 j
    takes0 j s ∧ s.board.choose 0 = some j ∧ (s.board.drv 0).da.share.mode = .liveFirst ∧
      s.board.pressing 0 = true := by decide +kernel
theorem witness_TakeMade_starved :
    let j := salv0 .waiting []
    let s := offered .liveFirst 2000001 j
    let x := s.board.drv 0
    let pressed : Board := withJob { j with level := .pressing } s.board
    takes0 j s ∧ s.board.jobById (1 : Byte).toNat = some j ∧ j.drive = 0 ∧ j.state = .waiting ∧ j.level = .patient ∧
      x.da.share.starve * 1000 < (s.board.now - j.since).toNat ∧ x.da.share.mode = .liveFirst ∧
      pressed.pressing 0 = true ∧ pressed.choose 0 = some { j with level := .pressing } := by decide +kernel
/-- The eligible job chosen: a PRESSING one before a PATIENT one, the nearer of two PATIENT ones, the earlier of equals. -/
theorem witness_TakeMade_choice :
    let near := { job0 .salvage .waiting [sector0 5 []] with serial := 1, cyl := 10 }
    let pressing := { job0 .salvage .waiting [sector0 5 []] with serial := 2, level := .pressing }
    let later := { job0 .salvage .waiting [sector0 5 []] with serial := 3, cyl := 10 }
    let b : Board :=
      (offered .liveFirst 0 near).board.modDa 0 fun da => { da with headCyl := none }
    let jobs (js : List Job) : Board := { b with re := { b.re with jobs := js } }
    (jobs [salv0 .waiting [], near, pressing]).choose 0 = some pressing ∧
      (jobs [salv0 .waiting [], near, later]).choose 0 = some near ∧
      (jobs [{ near with state := .active }]).choose 0 = none := by decide +kernel
theorem witness_TakeMade_seek :
    let j := salv0 .waiting []
    let s := { offered .salvageOnly 0 j with
      board := (offered .salvageOnly 0 j).board.modDa 0 fun da => { da with headCyl := some 10 } }
    (s.board.drv 0).da.headCyl ≠ some j.cyl ∧ (s.board.drv 0).da.headCyl.isNone = false ∧
      s.board.choose 0 = some j := by decide +kernel

/-- The board at the end of an engine's pass with LIVE_ONLY pending, the heads at the live cylinder. -/
def passEnd0 (j : Job) (missed : Bool) : State :=
  brd fun b => (withJob j b).modDrv 0 fun x =>
    let x := passing0 .read 14 x
    { x with da := { x.da with
        headCyl := some x.lp.pos.cyl, missed := missed, share := { x.da.share with pending := some .liveOnly } } }

/-- That end with no mode pending, under speed doubt, of a pass asked to end before its first slot. -/
def doubtEnd0 (j : Job) : State :=
  let s := passEnd0 j false
  { s with board := s.board.modDa 0 fun da =>
      { da with slots := 0, atBoundary := true, share := { da.share with pending := none } } }

/-- The premises of Drive.passCloses, of a drive without a set-up. -/
abbrev closesPass0 (x : Drive) : Prop :=
  x.rc.setup = .none ∧ x.lp.cmd.phase ≠ .transfer ∧ x.lp.cmd.phase ≠ .awaitingSlot ∧ x.rc.activity = .idle ∧
    x.da.owner = .enginePass ∧ x.da.stopAtEnd = false ∧ (x.profile.sectors ≤ x.da.slots ∨ x.da.atBoundary = true)
theorem passCloses_of_closesPass0 {x : Drive} (h : closesPass0 x) : x.passCloses := by
  obtain ⟨h0, h1, h2, h3, h4, h5, h6⟩ := h
  refine ⟨h1, h2, h3, h4, h5, h6, ?_, ?_⟩ <;> simp [h0]

/-- The premises of Drive.passOver, of a drive without a set-up. -/
abbrev over0 (x : Drive) : Prop :=
  closesPass0 x ∧ x.lp.cmd.phase ≠ .held ∧ x.da.held = false ∧
    (x.da.share.pending = some .liveOnly ∨ (x.da.share.pending = none ∧ x.rt.doubt = true)) ∧
    x.rc.offset = .zero ∧ x.da.headCyl = some x.lp.pos.cyl
theorem passOver_of_over0 {x : Drive} (h : over0 x) : x.passOver := ⟨passCloses_of_closesPass0 h.1, h.2⟩

/-- The end of a full pass of job 0 of drive 0 with further jobs in the table, no mode pending and no speed doubt. -/
def passesOn0 (served : JobRef) (js : List Job) : State :=
  let s := passEnd0 (salv0 .active []) false
  { s with board := { s.board with re := { s.board.re with jobs := js, nextSerial := 2 } }.modDrv 0 fun x =>
      { x with rt := { x.rt with doubt := false },
               da := { x.da with served := some served, share := { x.da.share with pending := none } } } }

/-- The premises common to the decisions between passes of TakeMade, at drive 0. -/
abbrev goesOn0 (s : State) : Prop :=
  let x := s.board.drv 0
  s.quiet ∧ closesPass0 x ∧ still s ∧ x.da.surveyMask = 0 ∧ x.da.held = false ∧ x.da.share.pending = none ∧
    x.rc.offset = .zero

theorem witness_TakeMade_passEnd :
    ∀ p ∈ [(JobRef.mk 7 7, [salv0 .waiting []]),
        (⟨0, 1⟩, [salv0 .active [], { salv0 .waiting [] with serial := 1, cyl := 100 }])],
      let s := passesOn0 p.1 p.2
      goesOn0 s ∧ (s.board.drv 0).da.served = some p.1 ∧ (s.board.job p.1.serial = none ↔ p.1.serial = 7) := by
  decide +kernel
/-- With the job served gone the other one is chosen; with it WAITING again it is the nearer of the two. -/
theorem witness_TakeMade_goesOn :
    let first := salv0 .waiting []
    let other := { salv0 .waiting [] with serial := 1, cyl := 100 }
    let again (b : Board) : Board :=
      { b with re := { b.re with jobs := [{ first with passes := 1, total := 1 }, other] } }
    (passesOn0 ⟨7, 7⟩ [first]).board.choose 0 = some first ∧
      (again ((passesOn0 ⟨0, 1⟩ [salv0 .active [], other]).board.modDa 0 fun da =>
        { da with headCyl := some 202 })).choose 0 = some { first with passes := 1, total := 1 } ∧
      (again (passesOn0 ⟨0, 1⟩ [salv0 .active [], other]).board).choose 0 = some other := by decide +kernel

theorem witness_LimitsExpire_starve :
    ∀ o ∈ [Owner.liveIdle, .liveBusy, .taking, .enginePosition, .enginePass, .engineRestore, .offline],
      ∀ m ∈ [ShareMode.liveFirst, .salvageOnly, .liveOnly],
        let j := salv0 .waiting []
        let s := { offered m 2000001 j with board := (offered m 2000001 j).board.modDa 0 fun da => { da with owner := o } }
        let x := s.board.drv 0
        s.board.jobById (1 : Byte).toNat = some j ∧ j.state = .waiting ∧ j.level = .patient ∧
          x.da.share.starve * 1000 < (s.board.now - j.since).toNat ∧ x.da.owner = o ∧ x.da.share.mode = m ∧
          x.rt.doubt = false ∧ j.needsPass = true := by decide +kernel

/-- An ACTIVE RELAY in a step, each of its 14 sectors with a PREPARE image or none, verified or not. -/
def relay0 (step : RelayStep) (image : Option Capture) (verified : Bool) : Job :=
  { job0 .relay .active [] with
    relayStep := step, retain := true,
    relay := (List.range 14).map fun k =>
      { sector := k, aside := none, image := image, written := false, verified := verified } }

/-- Drive 0 with a command held for the hold limit while the engine owns it. -/
def heldAt (o : Owner) (kind : PassKind) (da : Arbiter) : Arbiter :=
  { da with owner := o, held := true, holdStart := some 0, passKind := some kind, served := some ⟨0, 1⟩ }

/-- The premises common to the clauses of LimitsExpire on the hold limit, at drive 0. -/
abbrev holdsOut0 (s : State) : Prop :=
  let x := s.board.drv 0
  x.da.held = true ∧ x.da.limitHit = false ∧ x.da.holdStart = some 0 ∧
    x.da.share.hold * 1000 ≤ (s.board.now - 0).toNat

theorem witness_LimitsExpire_hold :
    ∀ o ∈ [Owner.enginePosition, .enginePass, .engineRestore],
      let s := at_ 80000 (arb0 fun da => { heldAt o .write da with writing := some 5 })
      let x := s.board.drv 0
      holdsOut0 s ∧ x.da.owner = o ∧ x.da.passKind = some .write ∧ x.da.writing ≠ none := by decide +kernel
theorem witness_LimitsExpire_readPass :
    let j := salv0 .active []
    let s := at_ 80000 (brd fun b => (withJob j b).modDrv 0 fun x =>
      { x with rc := { x.rc with setup := .pass (checking (.step 0) [5]) }, da := heldAt .enginePass .read x.da })
    let x := s.board.drv 0
    s.quiet ∧ holdsOut0 s ∧ x.da.owner = .enginePass ∧ x.da.passKind = some .read ∧ x.rc.activity ≠ .complete ∧
      x.rc.slotBuf = none ∧ x.da.surveyMask = 0 ∧ x.rc.offset = .zero ∧ x.da.headCyl ≠ some x.lp.pos.cyl ∧
      x.da.share.pending = none ∧ x.da.served = some ⟨0, 1⟩ ∧ s.board.job 0 = some j ∧ j.kind = .salvage ∧
      j.exhausted = false ∧ s.board.re.ladder[j.step]? = some ⟨0, .zero, false, 2⟩ ∧ j.passes < 2 ∧
      (∃ q ∈ j.sectors, q.status.unresolved = true) ∧ x.rc.setup = .pass (checking (.step 0) [5]) ∧
      (∀ q ∈ (checking (.step 0) [5]).plans, q.capture = none) ∧ still s := by decide +kernel
theorem witness_LimitsExpire_writePass :
    let j := relay0 .write none false
    let op := { doneOp (.writeFill 0 5 false) 0 with todo := [.read 0 0] }
    let s := at_ 80000 (brd fun b => (withOps [op] (withJob j b)).modDa 0 fun da =>
      { heldAt .enginePass .write da with wbuf := .filling 5 false })
    let x := s.board.drv 0
    s.quiet ∧ holdsOut0 s ∧ x.da.owner = .enginePass ∧ x.da.passKind = some .write ∧ x.da.writing = none ∧
      x.rc.setup = .none ∧ x.da.surveyMask = 0 ∧ x.rc.offset = .zero ∧ x.da.headCyl ≠ some x.lp.pos.cyl ∧
      x.da.served = some ⟨0, 1⟩ ∧ s.board.job 0 = some j ∧ j.kind = .relay ∧ j.relayStep = .write ∧
      j.fatal = false ∧ (∀ o ∈ s.board.ts.ops, o.wrote = []) ∧ ∀ p ∈ s.board.ts.keep, p.2 ≠ .draining := by
  decide +kernel
theorem witness_LimitsExpire_notDue :
    (∀ now ∈ [0, 79999],
      let s := at_ now (arb0 (heldAt .enginePass .read))
      let da := (s.board.drv 0).da
      da.holdStart = some 0 ∧ (s.board.now - 0).toNat < da.share.hold * 1000) ∧
    (arb0 fun da => { heldAt .enginePass .read da with limitHit := true }).board.drives.d0.da.limitHit = true ∧
      (State.reset.board.drv 0).da.held = false ∧ ((arb0 (heldAt .liveBusy .read)).board.drv 0).da.owner = .liveBusy := by
  decide +kernel

theorem witness_Snapshot_start :
    let caps := [{ held0 5120 with time := 20 }, { held0 5121 with time := 10 }, Capture.pendingAt 5122]
    let j := salv0 .waiting caps
    let s := at_ 30 (brd fun b => { withJob j b with su := { b.su with queue := [(0, 5)] } })
    s.board.su.flight = none ∧ s.board.su.queue = (j.serial, 5) :: [] ∧ s.board.job j.serial = some j ∧
      j.sectorRec 5 = some (sector0 5 caps) ∧ ∃ c ∈ (sector0 5 caps).caps, c.held = true := by decide +kernel

/-- A solve of sector 5 in flight. -/
def flight0 (phase : SolvePhase) (ms : List Member) : Flight :=
  { job := 0, sector := 5, k := 6, threshold := 8, phase := phase, snapshot := ms, requeue := false,
    discard := false, superseded := false }

theorem witness_Snapshot_read :
    let op := doneOp .solveRead 5120
    let f := flight0 .reading [⟨5120, 0, .step 0, 1, none⟩, ⟨5121, 0, .step 0, 1, none⟩]
    let s := brd fun b => { withOps [op] b with su := { b.su with flight := some f } }
    s.board.su.flight = some f ∧ f.phase = .reading ∧
      s.board.ts.ops.find? (fun o => o.kind = .solveRead && o.slot = op.slot && o.todo.isEmpty) = some op ∧
      (∃ m ∈ f.snapshot, m.slot ≠ op.slot ∧ m.data = none) ∧ (∀ p ∈ s.board.ts.keep, p.2 ≠ .draining) ∧
      (∀ n ∈ s.board.ts.writeRec, n < Config.keepSlots) ∧ Config.keepSlots ≤ op.slot := by decide +kernel
/-- The words and qualities of one sound capture as its reads give them, qualities of 6 throughout. -/
def soundGot : List (BitVec 32) := packWords exImage ++ packValues (List.replicate 131 6)

/-- The board that has read the last capture of a snapshot of one, sound, of sector 5. -/
def lastRead0 : State :=
  brd fun b => { withOps [doneOp .solveRead 5120 soundGot]
      (withJob { job0 .salvage .waiting [sector0 5 [held0 5120]] with drive := 1 } b) with
    su := { b.su with flight := some (flight0 .reading [⟨5120, 0, .step 0, 1, none⟩]) } }

/-- The premises of the last clause of Snapshot but for the solve's end: nothing of the snapshot stays to be read. -/
theorem witness_Snapshot_last :
    let op := doneOp .solveRead 5120 soundGot
    let f := flight0 .reading [⟨5120, 0, .step 0, 1, none⟩]
    let j := { job0 .salvage .waiting [sector0 5 [held0 5120]] with drive := 1 }
    let s := lastRead0
    s.board.su.flight = some f ∧ f.phase = .reading ∧
      s.board.ts.ops.find? (fun o => o.kind = .solveRead && o.slot = op.slot && o.todo.isEmpty) = some op ∧
      (∀ m ∈ f.snapshot, m.slot = op.slot) ∧ (∀ p ∈ s.board.ts.keep, p.2 ≠ .draining) ∧
      (∀ n ∈ s.board.ts.writeRec, n < Config.keepSlots) ∧ Config.keepSlots ≤ op.slot ∧ s.board.job f.job = some j ∧
      j.sectorRec f.sector = some (sector0 5 [held0 5120]) ∧ (sector0 5 [held0 5120]).slot = some 0 ∧
      (Grade.b).meets j.accept = true ∧
      unpackWords (op.got.take 66) = exImage ∧ unpackValues (op.got.drop 66) = List.replicate 131 6 := by decide +kernel
/-- The solve of that snapshot is graded B by SingleCaptureSolve (the kernel would take long over its 2,096 votes). -/
theorem witness_Snapshot_graded (h : Obligations.SingleCaptureSolve) :
    ∃ x, solveSnapshot (lastRead0.board.drv 1).profile 203 1 5 6 8 [(exImage, List.replicate 131 6)] = .graded x ∧
      x.rating = ⟨.b, 0, 6, 1⟩ := by
  obtain ⟨confs, hs, -⟩ := h.1 (lastRead0.board.drv 1).profile 203 1 5 6 8 exImage (List.replicate 131 6)
    (by decide +kernel) (by decide +kernel) (by decide +kernel) (by decide +kernel) (by decide +kernel)
  rw [show (List.replicate 131 6).foldl min 56 = 6 by decide +kernel] at hs
  exact ⟨_, hs, rfl⟩

theorem witness_SingleCaptureSolve :
    exImage.length = 131 ∧ (List.replicate 131 1).length = 131 ∧
      (∀ q ∈ List.replicate 131 1, 1 ≤ q ∧ q ≤ 7) ∧ soundImage exImage = true ∧
      headerTest (exProfile (some 291)) 203 1 5 (imageHeader exImage) = .matched := by decide +kernel
theorem witness_SingleCaptureSolve_vote :
    let sum (votes : List (Bool × Nat)) : Int := (votes.map fun v => if v.1 then (v.2 : Int) else -(v.2 : Int)).sum
    0 < sum [(true, 4), (false, 3)] ∧ sum [(true, 4), (false, 5)] < 0 ∧
      sum ([(false, 2)] ++ (true, 3) :: [(false, 1)]) = 0 ∧ (∀ u ∈ [(false, 2)], u.2 < 3) ∧
      ∀ u ∈ [(false, 1)], u.2 ≤ 3 := by decide +kernel

/-- The bits of the first words of an image whose others are 0, those listed of confidence 1, the others of 2. -/
def bitsOf (weak : List (Nat × Nat)) (words : List Word) : List VotedBit :=
  words.zipIdx.flatMap fun p => (List.range 16).map fun j =>
    { word := p.2, bit := 15 - j, value := p.1.getLsbD (15 - j),
      conf := if weak.contains (p.2, 15 - j) then 1 else 2 }

/-- A sound image, by hand of the sum 0; one that a single flip mends; one that either of two flips mends (0x8000
turned is 1, and 1 + 0xFFFF and 3 + 0xFFFD are 0); one that its weak bit does not mend. -/
theorem witness_SingleCaptureSolve_search :
    (let bits := bitsOf [] [0]; soundImage (votedImage bits) = true) ∧
    (let bits := bitsOf [(0, 0)] [1]
     soundImage (votedImage bits) = false ∧ soundMasks (votedImage bits) (weakBits 1 bits) 1 1 = [1]) ∧
    (let bits := bitsOf [(0, 0), (1, 1)] [0x8000, 0xFFFD]
     soundImage (votedImage bits) = false ∧ 2 ≤ (soundMasks (votedImage bits) (weakBits 2 bits) 2 1).length) ∧
    (let bits := bitsOf [(0, 5)] [1]
     soundImage (votedImage bits) = false ∧ soundMasks (votedImage bits) (weakBits 1 bits) 1 1 = []) := by decide +kernel

theorem witness_DeliveryComplete :
    let op := doneOp .delivery 0
    let x : Result := { rating := ⟨.b, 0, 6, 4⟩, image := [], confs := [] }
    let f := flight0 (.delivering x) []
    let j := salv0 .active [held0 5120]
    let r := sector0 5 [held0 5120]
    let s := brd fun b => { withOps [op] (withJob j b) with su := { b.su with flight := some f } }
    s.quiet ∧ s.board.ts.ops = [op] ∧ op.kind = .delivery ∧ op.todo = [] ∧ op.spoiled = false ∧
      s.board.su.flight = some f ∧ f.phase = .delivering x ∧ f.discard = false ∧ f.superseded = false ∧
      f.requeue = false ∧ f.job = j.serial ∧ f.sector = r.sector ∧ s.board.job j.serial = some j ∧ j.kind = .salvage ∧
      j.sectorRec r.sector = some r ∧ j.state = .active ∧
      (∃ q ∈ j.sectors, q.sector ≠ r.sector ∧ q.status.unresolved = true) ∧
      x.rating.grade.meets j.accept = true ∧ r.slot = some op.slot ∧
      s.board.ts.entry (j.track.addr r.sector) = none ∧ (s.board.drv j.drive).lp.buf.state = .invalid ∧
      (∀ p ∈ s.board.ts.keep, p.2 ≠ .draining) := by decide +kernel

theorem witness_StoreInitialises_pending :
    3 ≤ (brd fun b => { b with sk := { b.sk with pending := 3 } }).board.sk.pending := by decide +kernel
theorem witness_StoreInitialises_write :
    ∀ a ∈ [0, 509951],
      let s := brd fun b => { b with sk := { b.sk with pending := 2 }, ts := { b.ts with init := some a } }
      s.board.sk.pending < 3 ∧ s.board.ts.ops = [] ∧ s.board.ts.init = some a ∧ a < Config.storeCells := by decide +kernel
theorem witness_StoreInitialises_done :
    (brd fun b => { b with ts := { b.ts with init := some 509952 } }).board.ts.init = some Config.storeCells := rfl

/-- An operation on a slot with one access to make. -/
def dueOp (kind : OpKind) (x : Access) : StoreOp := { doneOp kind 0 with todo := [x] }

theorem witness_GrantOrder :
    let a := dueOp (.fill 0) (.read 0 0)
    let s := brd (withOps [dueOp .delivery (.write 1 0 0), a])
    s.board.ts.init = none ∧ s.board.ts.grantee 0 = some (.op 0 (dueOp .delivery (.write 1 0 0))) ∧
      (0, dueOp .delivery (.write 1 0 0)) ∈ grantable 0 [] s.board.ts.ops := by decide +kernel
theorem witness_GrantOrder_init :
    ∀ a ∈ [0, 509951], ∀ kind ∈ [OpKind.fetchSector addr5, .delivery, .fill 0],
      let op := dueOp kind (.read 0 0)
      let ts := { State.reset.board.ts with init := some a, ops := [op] }
      ts.init = some a ∧ a < Config.storeCells ∧ (kind = .fetchSector addr5 → 5 ≤ op.kind.priority) ∧
        (kind ≠ .fetchSector addr5 → op.kind.priority < 5) ∧ (0, op) ∈ grantable 0 [] ts.ops := by decide +kernel

/-- The premises common to the clauses of AccessGranted, for an operation that stands alone. -/
abbrev grants0 (op : StoreOp) (s : State) : Prop :=
  s.board.re.lawful ∧ s.board.sk.pending < 3 ∧ s.board.ts.grantee 0 = some (.op 0 op) ∧ s.board.ts.ops[0]? = some op

/-- A fetch about to read cell 82 of a slot. -/
def fetching (slot : Nat) : StoreOp := dueOp (.fetchSector addr5) (.read slot 82)

theorem witness_AccessGranted_read :
    ∀ p ∈ [(0, 0), (1, 1), (3, 2)], ∀ kind ∈ [OpKind.fill 0, .fetchSector addr5],
      let op := dueOp kind (.read 6143 82)
      let s := brd (withOps [op])
      grants0 op s ∧ op.todo = .read 6143 82 :: [] ∧ cellAddress 6143 82 < Config.storeCells ∧
        wrongCount (disturb (dramGet s.dram (cellAddress 6143 82)) (BitVec.ofNat 39 p.1)).wrong = p.2 ∧
        s.board.roleOf 6143 = .other := by decide +kernel
/-- The premises of a double error's treatment of an entry in AccessGranted, on a track with no job or a RELAY. -/
abbrev spoils0 (e : KeepEntry) (op : StoreOp) (s : State) : Prop :=
  let lp := (s.board.drv 0).lp
  grants0 op s ∧ s.board.ts.entry addr5 = some e ∧ s.board.captureJob addr5 = none ∧ s.board.re.suspects = [] ∧
    lp.emission = none ∧ (∀ o ∈ s.board.ts.ops, o.wrote = []) ∧ ∀ p ∈ s.board.ts.keep, p.2 ≠ .draining

theorem witness_AccessGranted_entry :
    ∀ damaged ∈ [false, true], ∀ state ∈ [EmitState.valid, .invalid],
      let e := { entry0 addr5 .placed with damaged := damaged }
      let s := brd fun b =>
        (withOps [fetching 0] (withEntry e b)).modLp 0 fun lp => { lp with buf := { lp.buf with state := state, addr := addr5 } }
      spoils0 e (fetching 0) s ∧ s.board.roleOf 0 = .entry e ∧ s.board.trackJob addr5.track = none := by decide +kernel
theorem witness_AccessGranted_fill :
    ∀ waits ∈ [true, false],
      let e := entry0 addr5 .placed
      let op := dueOp (.fill 0) (.read 0 65)
      let s := brd fun b => (withOps [op] (withEntry e b)).modDrv 0 fun x =>
        let x := if waits then reading0 .emit x else x
        { x with lp := { x.lp with buf := { state := .filling, addr := addr5, image := [] } } }
      spoils0 e op s ∧ s.board.roleOf 0 = .entry e ∧ op.kind = .fill e.addr.drive ∧
        (s.board.drv 0).lp.buf = { state := .filling, addr := addr5, image := [] } ∧
        s.board.trackJob addr5.track = none ∧ (s.board.drv 0).lp.waitsOnBuffer = waits := by decide +kernel
theorem witness_AccessGranted_writeFill :
    let e := entry0 addr5 .placed
    let j := job0 .relay .active []
    let op := dueOp (.writeFill 0 5 false) (.read 0 65)
    let s := brd fun b => (withOps [op] (withEntry e (withJob j b))).modDrv 0 (passing0 .write 1)
    spoils0 e op s ∧ s.board.roleOf 0 = .entry e ∧ s.board.trackJob addr5.track = some j ∧ j.kind = .relay ∧
      (s.board.drv 0).da.served = some ⟨0, 1⟩ := by decide +kernel
theorem witness_AccessGranted_copy :
    ∀ stands ∈ [true, false],
      let e := { entry0 addr5 .placed with slot := if stands then 0 else 1 }
      let op := { dueOp (.copy addr5 5120) (.read 5120 65) with slot := 0 }
      let s := brd fun b => withOps [op] (withEntry e b)
      spoils0 e op s ∧ s.board.roleOf 5120 = .other ∧ s.board.trackJob addr5.track = none ∧
        (e.slot = op.slot ↔ stands = true) := by decide +kernel
theorem witness_AccessGranted_solveRead :
    let op := { dueOp .solveRead (.read 5120 65) with slot := 5120 }
    let f := flight0 .reading [⟨5120, 0, .step 0, 1, none⟩, ⟨5121, 0, .step 0, 1, none⟩]
    let j := salv0 .waiting [held0 5120, held0 5121]
    let s := brd fun b => { withOps [op] (withJob j b) with su := { b.su with flight := some f } }
    grants0 op s ∧ s.board.roleOf 5120 = .capture 0 5 ∧ s.board.job 0 = some j ∧ s.board.su.flight = some f ∧
      f.phase = .reading ∧ (∃ m ∈ f.snapshot, m.slot ≠ 5120 ∧ m.data = none) ∧
      (∃ m ∈ f.snapshot, m.slot = 5120 ∧ m.data = none) ∧ op.wrote = [] := by decide +kernel
theorem witness_AccessGranted_patch :
    ∀ q ∈ [(0, true, KeepKind.placed), (1, false, .placed), (0, false, .diverted), (0, false, .recovered ⟨.b, 0, 1, 1⟩)],
      let e := { entry0 addr5 q.2.2 with slot := q.1, damaged := q.2.1 }
      let op := dueOp (.patch addr5 127 1) (.read 0 65)
      let s := brd fun b => withOps [op] (withEntry e b)
      grants0 op s ∧ op.syn = [] ∧ op.wrote = [] ∧ s.board.ts.entry addr5 = some e ∧ (e.slot ≠ op.slot ↔ q.1 = 1) ∧
        ∀ p ∈ s.board.ts.keep, p.2 ≠ .draining := by decide +kernel
theorem witness_AccessGranted_job :
    ∀ q ∈ [(0, salv0 .waiting [], Role.other),
        (0, { salv0 .waiting [] with sectors := [{ sector0 5 [] with best := some { rating := ⟨.c, 0, 1, 1⟩, time := 0 } }] }, .best 0 5),
        (5120, salv0 .waiting [held0 5120], .capture 0 5),
        (5120, { job0 .relay .waiting [] with relay :=
          [{ sector := 5, aside := none, image := some (held0 5120), written := false, verified := false }] }, .image 0 5)],
      let s := brd fun b => (withOps [fetching q.1] (withJob q.2.1 b)).modRc 0 fun rc =>
        { rc with buf1 := { rc.buf1 with state := .writing, who := { job := 0, sector := 5, slot := some 5120 } } }
      grants0 (fetching q.1) s ∧ s.board.roleOf q.1 = q.2.2 ∧ s.board.job 0 = some q.2.1 ∧
        s.board.su.flight = none := by decide +kernel
theorem witness_AccessGranted_kind : ∀ a k v, (fetching 0).kind ≠ .patch a k v := nofun
theorem witness_AccessGranted_write :
    ∀ slot ∈ [0, 5119, 5120],
      let op := dueOp .delivery (.write slot 0 1)
      let s := brd (withOps [op])
      grants0 op s ∧ op.todo = .write slot 0 1 :: [] ∧ cellAddress slot 0 < Config.storeCells := by decide +kernel

theorem witness_ScrubAndLog_scrub :
    ∀ p ∈ [(0, 0), (509951, 1), (439912, 3)],
      let s := brd fun b => { storeReady b with sk := { b.sk with waiting := true, address := p.1 } }
      let c := disturb (dramGet s.dram p.1) (BitVec.ofNat 39 p.2)
      s.board.sk.waiting = true ∧ s.board.sk.pending = 0 ∧ s.board.ts.init = none ∧ s.board.ts.ops = [] ∧
        p.1 < Config.storeCells ∧ (p.2 = 0 → wrongCount c.wrong = 0) ∧ (p.2 = 1 → wrongCount c.wrong = 1) ∧
        (p.2 = 3 → wrongCount c.wrong = 2 ∧ s.board.roleOf (p.1 / 83) = .other) := by decide +kernel

/-- A log entry of a kind. -/
def logged (kind : ErrorKind) : LogEntry :=
  { kind := kind, slot := 0, cell := 0, syndrome := 1, finder := .scrub, owner := .free, time := 0, epoch := 1 }

theorem witness_ScrubAndLog_room : (List.replicate 15 (logged .single)).length < 16 := by decide +kernel
theorem witness_ScrubAndLog_single :
    let log := List.replicate 8 (logged .double) ++ logged .single :: List.replicate 7 (logged .double)
    16 ≤ log.length ∧ (logged .single).kind = .single ∧
      ∀ y ∈ List.replicate 8 (logged .double), y.kind = .double := by decide +kernel
theorem witness_ScrubAndLog_doubles :
    let log := List.replicate 16 (logged .double)
    16 ≤ log.length ∧ (∀ y ∈ log, y.kind = .double) ∧
      log = logged .double :: List.replicate 15 (logged .double) := by decide +kernel

theorem witness_RefreshAndScrubTicks_refresh :
    ∀ p ∈ [(0, 0), (128, 126), (1024, 0)],
      let s := at_ 16 (brd fun b => { b with sk := { b.sk with interval := p.1, tickCount := p.2, pending := 15 } })
      16 ≤ (s.board.now - s.board.sk.tickTime).toNat ∧
        (s.board.sk.interval = 0 ∨ s.board.sk.tickCount + 1 < s.board.sk.interval) := by decide +kernel
theorem witness_RefreshAndScrubTicks_scrub :
    let s := at_ 16 (brd fun b => { b with sk := { b.sk with tickCount := 127 } })
    16 ≤ (s.board.now - s.board.sk.tickTime).toNat ∧ s.board.sk.interval ≠ 0 ∧
      s.board.sk.interval ≤ s.board.sk.tickCount + 1 := by decide +kernel
theorem witness_RefreshAndScrubTicks_burst :
    let s := brd fun b => { storeReady b with sk := { b.sk with pending := 1 } }
    3 ≤ s.board.sk.pending ∨ (1 ≤ s.board.sk.pending ∧ s.board.ts.ops = [] ∧ s.board.ts.init = none) := by decide +kernel

theorem witness_FillsAndCopiesEnd_fill :
    let op := doneOp (.fill 0) 0 (packWords (buildImage addr5 291 []))
    let s := brd fun b => (withOps [op] b).modLp 0 fun lp =>
      { lp with buf := { state := .filling, addr := addr5, image := [] } }
    let a := (s.board.drv 0).lp.buf.addr
    let img := unpackWords op.got
    s.board.ts.ops = [op] ∧ op.todo = [] ∧ (∀ p ∈ s.board.ts.keep, p.2 ≠ .draining) ∧
      (imageHeader img).cyl = a.cyl.val ∧ (imageHeader img).head = a.head.val ∧ (imageHeader img).format = 0 ∧
      (imageHeader img).sector = a.sector.val ∧ soundImage img = true := by decide +kernel
theorem witness_FillsAndCopiesEnd_relay :
    let op := doneOp (.writeFill 0 5 false) 0
    let j := job0 .relay .active []
    let s := brd fun b => (withOps [op] (withJob j b)).modDa 0 fun da => { da with served := some ⟨0, 1⟩ }
    s.board.ts.ops = [op] ∧ op.todo = [] ∧ op.spoiled = false ∧ (∀ p ∈ s.board.ts.keep, p.2 ≠ .draining) ∧
      op.kind = .writeFill 0 5 false ∧ (s.board.drv 0).da.served = some ⟨0, 1⟩ ∧
      s.board.job 0 = some j := by decide +kernel

/-- The board in the last movement of the positioning for a job, one pulse before sector 4. -/
def arriving0 (j : Job) (b : Board) : Board :=
  (withJob j b).modDrv 0 fun x => { x with
    rt := { x.rt with doubt := false, position := 4 },
    da := { x.da with owner := .enginePosition, work := .seek, served := some ⟨0, 1⟩ } }

/-- The premises common to the starts of a RELAY's pass in FillsAndCopiesEnd, at drive 0. -/
abbrev arrives0 (j : Job) (s : State) : Prop :=
  let x := s.board.drv 0
  x.lp.seeking = false ∧ x.da.work = .seek ∧ x.da.abandon = false ∧ x.da.preempted = false ∧ x.rc.offset = .zero ∧
    x.da.plan.offset = .zero ∧ x.rt.doubt = false ∧ x.da.served = some ⟨0, 1⟩ ∧ s.board.job 0 = some j ∧
    j.kind = .relay ∧ j.serial = 0

theorem witness_FillsAndCopiesEnd_passes :
    ∀ step ∈ [RelayStep.verify, .prepare],
      let j := relay0 step none false
      let s := brd fun b => let b := arriving0 j b; { b with ts := { b.ts with pool := [5120, 5122] } }
      let missing := j.relay.filter fun q =>
        !((s.board.ts.entry (j.track.addr q.sector)).any (!·.damaged) || q.image.isSome)
      arrives0 j s ∧ j.relayStep = step ∧ (s.board.ts.pool).Pairwise (· < ·) ∧
        (∀ n ∈ s.board.ts.pool, Config.keepSlots ≤ n) ∧
        s.board.ts.pool.length + missing.length ≤ Config.allSlots - Config.keepSlots := by decide +kernel
theorem witness_FillsAndCopiesEnd_writePass :
    let e := entry0 addr5 .placed
    let s := brd fun b => withEntry e (arriving0 (relay0 .write none false) b)
    arrives0 (relay0 .write none false) s ∧
      ((s.board.drv 0).rt.position + 1) % (s.board.drv 0).profile.sectors = 5 ∧
      s.board.ts.entry ((relay0 .write none false).track.addr 5) = some e ∧ e.damaged = false := by decide +kernel
theorem witness_FillsAndCopiesEnd_imagePass :
    ∀ c ∈ [held0 5120, Capture.pendingAt 5120],
      let j := relay0 .write (some c) false
      let s := brd fun b => withEntry { entry0 addr5 .placed with damaged := true } (arriving0 j b)
      arrives0 j s ∧ (s.board.ts.entry (j.track.addr 5)).all (·.damaged) = true ∧
        (j.relayRec 5).bind (·.image) = some c := by decide +kernel

/-- The premises common to the pulses of a RELAY's pass in FillsAndCopiesEnd, at drive 0. -/
abbrev relays0 (j : Job) (s : State) : Prop :=
  let x := s.board.drv 0
  x.lp.cmd.phase ≠ .transfer ∧ x.lp.cmd.phase ≠ .awaitingSlot ∧ x.rc.activity = .idle ∧ x.da.owner = .enginePass ∧
    x.da.stopAtEnd = false ∧ x.da.served = some ⟨0, 1⟩ ∧ s.board.job 0 = some j ∧ j.kind = .relay ∧ j.serial = 0 ∧
    still s

theorem witness_FillsAndCopiesEnd_slots :
    ∀ slots ∈ [0, 12, 13], ∀ ready ∈ [true, false],
      let j := relay0 .write none false
      let e := { entry0 addr5 .placed with addr := { addr5 with sector := 6 } }
      let s := brd fun b => withEntry e ((withJob j b).modDrv 0 fun x =>
        let x := passing0 .write slots x
        { x with da := { x.da with wbuf := if ready then .ready 5 false [] else .waiting 5 } })
      let x := s.board.drv 0
      relays0 j s ∧ x.da.passKind = some .write ∧ x.da.atBoundary = false ∧ x.da.slots < x.profile.sectors ∧
        (x.rt.advance x.profile.sectors).position = 5 ∧
        (x.da.wbuf = .ready 5 false [] ↔ ready = true) ∧ (x.da.slots + 1 = x.profile.sectors ↔ slots = 13) ∧
        s.board.ts.entry (j.track.addr 6) = some e ∧
        e.damaged = false := by decide +kernel
theorem witness_FillsAndCopiesEnd_nextImage :
    ∀ image ∈ [none, some (held0 5120), some (Capture.pendingAt 5120)],
      let j := relay0 .write image false
      let s := brd fun b => (withJob j b).modDrv 0 fun x =>
        let x := passing0 .write 12 x
        { x with da := { x.da with wbuf := .ready 5 true [] } }
      let x := s.board.drv 0
      relays0 j s ∧ x.da.passKind = some .write ∧ x.da.atBoundary = false ∧ x.da.slots + 1 < x.profile.sectors ∧
        (x.rt.advance x.profile.sectors).position = 5 ∧ x.da.wbuf = .ready 5 true [] ∧
        (s.board.ts.entry (j.track.addr 6)).all (·.damaged) = true ∧ (j.relayRec 6).bind (·.image) = image := by
  decide +kernel
theorem witness_FillsAndCopiesEnd_late :
    ∀ slot ∈ [0, 1],
      let j := relay0 .write none false
      let op := { doneOp (.writeFill 0 5 false) slot with todo := [.read slot 0] }
      let s := brd fun b => (withOps [op] { withJob j b with ts := { b.ts with keep := [(0, .draining)] } }).modDrv 0
        fun x => let x := passing0 .write 12 x; { x with da := { x.da with wbuf := .filling 5 false } }
      let x := s.board.drv 0
      s.board.job 0 = some j ∧ x.da.passKind = some .write ∧ x.da.slots < x.profile.sectors ∧
        x.da.wbuf = .filling 5 false ∧ s.board.ts.ops = [op] ∧ op.wrote = [] := by decide +kernel

theorem noWriteFill_of_still {s : State} (h : still s) (d : DriveNo) : s.board.noWriteFill d :=
  ⟨by simp [h.1], h.2⟩

/-- The premises common to the ends of a RELAY's pass in FillsAndCopiesEnd, at drive 0. -/
abbrev endsPass0 (j : Job) (missed : Bool) (s : State) : Prop :=
  let x := s.board.drv 0
  s.quiet ∧ relays0 j s ∧ over0 x ∧ x.profile.sectors ≤ x.da.slots ∧ x.da.surveyMask = 0 ∧ x.da.missed = missed

theorem witness_FillsAndCopiesEnd_ends :
    ∀ step ∈ [RelayStep.prepare, .write, .verify], ∀ missed ∈ [false, true], ∀ image ∈ [none, some (held0 5120)],
      let j := relay0 step image false
      let s := passEnd0 j missed
      endsPass0 j missed s ∧ j.relayStep = step ∧ j.fatal = false ∧ j.stale = false ∧ j.stepPass = 0 ∧
        (∃ q ∈ j.relay, q.verified = false) ∧
        ((j.relay.all fun q => (s.board.ts.entry (j.track.addr q.sector)).any (!·.damaged) || q.image.isSome) = false ↔
          image = none) := by decide +kernel
theorem witness_FillsAndCopiesEnd_complete :
    let j := relay0 .verify none true
    let s := passEnd0 j false
    endsPass0 j false s ∧ j.relayStep = .verify ∧ j.stale = false ∧
      (∀ q ∈ j.relay, q.verified = true ∧ q.aside = none ∧ q.image = none) ∧ j.sectors = [] ∧ j.retain = true ∧
      j.drive = 0 ∧ (s.board.ts.dir.map (·.addr)).Nodup ∧ (s.board.drv 0).lp.buf.state = .invalid ∧
      s.board.noAuto ∧ s.board.su.queue = [] ∧ s.board.su.flight = none := by decide +kernel
theorem witness_FillsAndCopiesEnd_copy :
    let op := doneOp (.copy addr5 5120) 0
    let s := brd (withOps [op])
    s.board.ts.ops = [op] ∧ op.todo = [] ∧ op.spoiled = false ∧ (∀ p ∈ s.board.ts.keep, p.2 ≠ .draining) ∧
      op.kind = .copy addr5 5120 := by decide +kernel

theorem witness_CaptureWritten :
    let op := doneOp (.capture 0 0) 5120
    let j := salv0 .active [Capture.pendingAt 5120]
    let r := sector0 5 [Capture.pendingAt 5120]
    let s := brd fun b => (withOps [op] (withJob j b)).modRc 0 fun rc =>
      { rc with buf0 := { rc.buf0 with state := .writing, who := { job := 0, sector := 5, slot := some 5120 } } }
    let buf := (s.board.drv 0).rc.buf 0
    s.board.ts.ops = [op] ∧ op.kind = .capture 0 0 ∧ op.todo = [] ∧ op.spoiled = false ∧
      (∀ p ∈ s.board.ts.keep, p.2 ≠ .draining) ∧ buf.who.job = j.serial ∧ buf.who.sector = r.sector ∧
      s.board.job j.serial = some j ∧ j.kind = .salvage ∧ j.state = .active ∧ j.sectorRec r.sector = some r ∧
      r.status.unresolved = true ∧ (∃ p ∈ r.caps, p.slot = op.slot ∧ p.held = false) ∧
      s.board.su.flight = none ∧ (j.serial, r.sector) ∉ s.board.su.queue := by decide +kernel
theorem witness_CaptureWritten_image :
    ∀ waits ∈ [true, false],
      let op := doneOp (.capture 0 0) 5120
      let c := { Capture.pendingAt 5120 with tag := .prepare }
      let q : RelaySector := { sector := 5, aside := none, image := some c, written := false, verified := false }
      let j := { job0 .relay .active [] with relay := [q] }
      let s := brd fun b => (withOps [op] (withJob j b)).modDrv 0 fun x => { x with
        rc := { x.rc with buf0 := { x.rc.buf0 with
          state := .writing, who := { job := 0, sector := 5, slot := some 5120 }, tag := c.tag, passNo := c.passNo,
          shift := c.shift, offset := c.offset, total := c.total, time := c.time } },
        da := { x.da with served := some ⟨0, 1⟩, wbuf := if waits then .waiting 5 else .empty } }
      let buf := (s.board.drv 0).rc.buf 0
      s.board.ts.ops = [op] ∧ op.kind = .capture 0 0 ∧ op.todo = [] ∧ op.spoiled = false ∧
        (∀ p ∈ s.board.ts.keep, p.2 ≠ .draining) ∧ buf.who.job = j.serial ∧ buf.who.sector = q.sector ∧
        s.board.job j.serial = some j ∧ j.drive = 0 ∧ j.relayRec q.sector = some q ∧
        q.image = some { slot := op.slot, held := false, lock := false, tag := buf.tag, passNo := buf.passNo,
                         shift := buf.shift, offset := buf.offset, total := buf.total, time := buf.time } ∧
        ((s.board.drv 0).da.wbuf = .waiting q.sector ↔ waits = true) ∧
        (s.board.ts.entry (j.track.addr q.sector)).all (·.damaged) = true := by decide +kernel

/-- A READ pass for the job of drive 0 at its step 0, one pulse before sector 5; slot 5 is listed for its sector 5 with a
set-aside slot or none. -/
def capturing0 (listed : Option (Option Nat)) (j : Job) (rc : Channel → Channel) : State :=
  let ps : PassSetup := { checking (.step 0) [] with plans := listed.toList.map fun slot =>
    { sector := 5, capture := some { job := 0, sector := 5, slot := slot }, acted := false } }
  brd fun b => (withJob j b).modDrv 0 fun x => passing0 .read 1 { x with rc := { rc x.rc with setup := .pass ps } }

/-- The premises common to the pulses of CaptureWritten at drive 0, for the slot set aside or none. -/
abbrev captures0 (slot : Option Nat) (j : Job) (r : SalvageSector) (s : State) : Prop :=
  let x := s.board.drv 0
  x.lp.cmd.phase ≠ .transfer ∧ x.lp.cmd.phase ≠ .awaitingSlot ∧ x.da.owner = .enginePass ∧
    x.da.passKind = some .read ∧ x.da.atBoundary = false ∧ x.da.stopAtEnd = false ∧
    x.da.slots < x.profile.sectors ∧ s.board.job 0 = some j ∧ j.kind = .salvage ∧ j.sectorRec 5 = some r ∧
    (slot = none ∨ ∃ y ∈ r.caps, some y.slot = slot ∧ y.held = false)

theorem witness_CaptureWritten_opens :
    ∀ slot ∈ [none, some 5120], ∀ busy ∈ [(BufferState.free, BufferState.free), (.writing, .free), (.writing, .handed)],
      let caps := slot.toList.map Capture.pendingAt
      let s := capturing0 (some slot) (salv0 .active caps) fun rc =>
        { rc with buf0 := { rc.buf0 with state := busy.1 }, buf1 := { rc.buf1 with state := busy.2 } }
      captures0 slot (salv0 .active caps) (sector0 5 caps) s ∧ (s.board.drv 0).rc.activity = .idle ∧
        (s.board.drv 0).rc.buf0.state = busy.1 ∧ (s.board.drv 0).rc.buf1.state = busy.2 := by decide +kernel

/-- The capture of sector 5 read in buffer 1, its words of quality 1 throughout, with a set-aside slot or none. -/
def captured5 (found : Bool) (slot : Option Nat) (rc : Channel) : Channel :=
  { readDone 5 found true .matched rc with
    slotBuf := some 1,
    buf1 := { rc.buf1 with state := .receiving, who := { job := 0, sector := 5, slot := slot },
                           words := exImage, quals := List.replicate 131 1 } }

theorem witness_CaptureWritten_closes :
    ∀ found ∈ [true, false], ∀ status ∈ [SectorStatus.pending, .resolved], ∀ slot ∈ [none, some 5120],
      let r := { sector0 5 (slot.toList.map Capture.pendingAt) with status := status }
      let j := job0 .salvage .active [r]
      let s := capturing0 none j (captured5 found slot)
      let rc := (s.board.drv 0).rc
      captures0 slot j r s ∧ rc.activity ≠ .idle ∧ rc.slotBuf = some 1 ∧ (rc.buf 1).who.slot = slot ∧
        rc.header = some (.matched, ⟨203, 1, 0, 5, 291⟩) ∧
        (rc.activity = .complete ∧ rc.found = true ↔ found = true) := by decide +kernel
theorem witness_CaptureWritten_full :
    ∀ low ∈ [131, 132],
      let caps := List.replicate 7 { held0 5121 with total := 132 } ++ [{ held0 5120 with total := low }]
      let r := sector0 5 caps
      let s := capturing0 none (job0 .salvage .active [r]) (captured5 true none)
      captures0 none (job0 .salvage .active [r]) r s ∧ ((s.board.drv 0).rc.buf 1).quals.sum = 131 ∧
        (low = 131 → ∀ y ∈ caps.take 7, low < y.total) ∧ (low = 132 → ∀ y ∈ caps, 131 < y.total) := by decide +kernel
theorem witness_CaptureWritten_prepare :
    ∀ found ∈ [true, false], ∀ slot ∈ [none, some 5120],
      let q : RelaySector := { sector := 5, aside := slot, image := none, written := false, verified := false }
      let j := { job0 .relay .active [] with relay := [q] }
      let ps := checking .prepare []
      let s := brd fun b => (withJob j b).modDrv 0 fun x =>
        passing0 .read 1 { x with rc := { captured5 found slot x.rc with setup := .pass ps } }
      let x := s.board.drv 0
      x.lp.cmd.phase ≠ .transfer ∧ x.lp.cmd.phase ≠ .awaitingSlot ∧ x.da.owner = .enginePass ∧
        x.da.passKind = some .read ∧ x.da.atBoundary = false ∧ x.da.stopAtEnd = false ∧
        x.da.slots < x.profile.sectors ∧ ps.plans = [] ∧ x.rc.activity ≠ .idle ∧ x.rc.slotBuf = some 1 ∧
        (x.rc.buf 1).who = { job := 0, sector := 5, slot := slot } ∧ s.board.job 0 = some j ∧ j.kind = .relay ∧
        j.relayRec 5 = some q ∧ x.rc.sound = true ∧ x.rc.header = some (.matched, ⟨203, 1, 0, 5, 291⟩) ∧
        (x.rc.activity = .complete ∧ x.rc.found = true ↔ found = true) := by decide +kernel

/-- The premises common to the pass ends of CaptureWritten, at drive 0. -/
abbrev salvageEnds0 (j : Job) (s : State) : Prop :=
  s.quiet ∧ over0 (s.board.drv 0) ∧ still s ∧ (s.board.drv 0).da.surveyMask = 0 ∧ (s.board.drv 0).da.served = some ⟨0, 1⟩ ∧
    s.board.job 0 = some j ∧ j.kind = .salvage ∧ j.drive = 0

theorem witness_CaptureWritten_passEnd :
    ∀ q ∈ [(0, 0, 1, false), (0, 1, 1, false), (7, 0, 1, false), (0, 1, 1, true), (8, 0, 1, false), (7, 0, 0, false)],
      let j := { salv0 .active [] with step := q.1, passes := q.2.1, rep := q.2.2.1, repeats := 1 }
      salvageEnds0 j (passEnd0 j q.2.2.2) := by decide +kernel
theorem witness_CaptureWritten_noSlot :
    let s := doubtEnd0 (salv0 .active [])
    salvageEnds0 (salv0 .active []) s ∧ (s.board.drv 0).da.slots = 0 ∧ (s.board.drv 0).rt.doubt = true := by
  decide +kernel

theorem witness_CaptureWritten_rests :
    ∀ queued ∈ [true, false],
      let j := { salv0 .active [] with exhausted := true }
      let s := let s := passEnd0 j false
        { s with board := { s.board with su := { s.board.su with queue := if queued then [(0, 5)] else [] } } }
      salvageEnds0 j s ∧ ((∀ q ∈ s.board.su.queue, q.1 ≠ 0) ↔ queued = false) ∧ s.board.su.flight = none ∧
        (∀ e, (s.board.drv e).rc.buf0.state ≠ .writing ∧ (s.board.drv e).rc.buf1.state ≠ .writing ∧
          (s.board.drv e).lp.diversion = none) ∧
        (∀ q ∈ j.sectors, q.best = none ∧ q.caps = []) ∧ j.relay = [] ∧ s.board.ts.ops = [] ∧ s.board.noAuto := by
  decide +kernel

theorem witness_FetchEnds_sector :
    ∀ double ∈ [false, true],
      let op := { doneOp (.fetchSector addr5) 0 with double := double }
      let e := entry0 addr5 .placed
      let s := brd fun b => withOps [op] (withEntry e b)
      s.board.ts.ops = [op] ∧ op.todo = [] ∧ (∀ p ∈ s.board.ts.keep, p.2 ≠ .draining) ∧
        op.kind = .fetchSector addr5 ∧ s.board.ts.entry addr5 = some e ∧ e.slot = op.slot ∧
        op.double = double := by decide +kernel
theorem witness_FetchEnds_gone :
    let op := doneOp (.fetchSector addr5) 0
    let s := brd (withOps [op])
    s.board.ts.ops = [op] ∧ op.todo = [] ∧ (∀ p ∈ s.board.ts.keep, p.2 ≠ .draining) ∧
      s.board.ts.entry addr5 = none := by decide +kernel
theorem witness_FetchEnds_capture :
    ∀ double ∈ [false, true],
      let op := { doneOp (.fetchCapture 0 5 (held0 5120)) 5120 with double := double }
      let s := brd (withOps [op])
      s.board.ts.ops = [op] ∧ op.todo = [] ∧ (∀ p ∈ s.board.ts.keep, p.2 ≠ .draining) ∧
        op.kind = .fetchCapture 0 5 (held0 5120) ∧ op.double = double := by decide +kernel

/-- The premises common to the clauses of StoreWriteEnds, at addr5. -/
abbrev writeEnds0 (op : StoreOp) (s : State) : Prop :=
  s.board.ts.ops = [op] ∧ op.todo = [] ∧ op.spoiled = false ∧ (∀ p ∈ s.board.ts.keep, p.2 ≠ .draining) ∧
    s.board.trackJob addr5.track = none ∧ (s.board.drv addr5.drive).lp.buf.state = .invalid

theorem witness_StoreWriteEnds_placed :
    let op := doneOp (.storeSector addr5) 0
    let s := brd (withOps [op])
    writeEnds0 op s ∧ op.kind = .storeSector addr5 ∧ s.board.ts.entry addr5 = none := by decide +kernel
theorem witness_StoreWriteEnds_replaced :
    ∀ held ∈ [true, false],
      let op := doneOp (.storeSector addr5) 1
      let old := entry0 addr5 .placed
      let s := brd fun b => (withOps [op] (withEntry old b)).modLp 0 fun lp =>
        { lp with diversion := if held then some div0 else none }
      writeEnds0 op s ∧ op.kind = .storeSector addr5 ∧ s.board.ts.entry addr5 = some old ∧ old.isDiverted = false ∧
        old.slot ≠ op.slot ∧ s.board.divertHolds old.slot = held := by decide +kernel
theorem witness_StoreWriteEnds_denied :
    let op := doneOp (.storeSector addr5) 1
    let s := brd fun b => withOps [op] (withEntry (entry0 addr5 .diverted) b)
    writeEnds0 op s ∧ op.kind = .storeSector addr5 ∧ (s.board.ts.entry addr5).any (·.isDiverted) = true ∧
      s.board.divertHolds op.slot = false := by decide +kernel
theorem witness_StoreWriteEnds_patch :
    let op := doneOp (.patch addr5 127 1) 0
    let e := entry0 addr5 .placed
    let s := brd fun b => withOps [op] (withEntry e b)
    writeEnds0 op s ∧ op.kind = .patch addr5 127 1 ∧ op.double = false ∧ s.board.ts.entry addr5 = some e ∧
      e.slot = op.slot ∧ e.damaged = false := by decide +kernel

theorem witness_StoreWriteEnds_patchRefused :
    ∀ q ∈ [(true, 0, false), (false, 1, false), (false, 0, true)],
      let op := { doneOp (.patch addr5 127 1) 0 with double := q.1 }
      let e := { entry0 addr5 .placed with slot := q.2.1, damaged := q.2.2 }
      let s := brd fun b => withOps [op] (withEntry e b)
      writeEnds0 op s ∧ op.kind = .patch addr5 127 1 ∧ op.double = q.1 ∧ s.board.ts.entry addr5 = some e ∧
        (e.slot ≠ op.slot ↔ q.2.1 = 1) ∧ e.damaged = q.2.2 := by decide +kernel

theorem witness_ImageCodings :
    (exData 0x0102).length = 128 ∧ exImage.length = 131 ∧ fullValues.length = 131 ∧ ∀ v ∈ fullValues, v < 16 := by
  decide +kernel

theorem witness_FrameRoundTrip :
    (List.replicate 512 (0xC3 : Byte)).length ≤ 512 ∧ 1 ≤ (0x3F : Byte).toNat ∧ (0x3F : Byte).toNat ≤ 0x3F ∧
      State.reset.link.framer.phase = .hunt ∧ State.reset.link.queue.length < 4 := by decide +kernel

theorem witness_Enquiries :
    (∀ x ∈ [((0x01 : Byte), ([] : List Byte)), (0x02, []), (0x03, [3]), (0x06, [3]), (0x03, [4]), (0x06, [4]), (0x09, [])],
      (asked x.1 x.2).inHand x.1 x.2) ∧
    3 < (4 : Byte).toNat ∧ byteOf (3 : DriveNo).val = 3 := asked_each (by decide +kernel)

theorem witness_Lists :
    (∀ x ∈ [((0x0D : Byte), ([] : List Byte)), (0x16, []), (0x0C, [1, 17]), (0x0C, [1, 16])],
      (asked x.1 x.2).inHand x.1 x.2) ∧
    State.reset.board.jobById 1 = none := asked_each (by decide +kernel)
theorem witness_Lists_part :
    ∀ q ∈ [(salv0 .waiting [held0 5120], (6 : Byte)), (salv0 .waiting [], 1), (relay0 .prepare (some (held0 5120)) false, 6),
        (relay0 .prepare none false, 16), (job0 .survey .waiting [], 1)],
      let j := q.1
      let s := asked 0x0C [1, q.2] (brd (withJob j))
      let k := q.2.toNat - 1
      s.inHand 0x0C [1, q.2] ∧ s.board.jobById (1 : Byte).toNat = some j ∧ 1 ≤ q.2.toNat ∧ q.2.toNat ≤ 16 ∧
        (k = 5 → (j.kind = .salvage ∧ j.sectorRec k ≠ none) ∨ (j.kind = .relay ∧ j.relayRec k ≠ none)) ∧
        (k ≠ 5 → j.kind = .survey ∨ (j.kind = .salvage ∧ j.sectorRec k = none) ∨ (j.kind = .relay ∧ j.relayRec k = none)) := by
  intro q hq
  simp only [List.mem_cons, List.not_mem_nil, or_false] at hq
  rcases hq with rfl | rfl | rfl | rfl | rfl <;> exact asked_meets (by decide +kernel)
theorem witness_Lists_job :
    let s := asked 0x0C [1, 0] (brd (withJob (salv0 .waiting [])))
    s.inHand 0x0C [1, 0] ∧ s.board.jobById 1 = some (salv0 .waiting []) :=
  asked_meets (by decide +kernel)
theorem witness_Lists_keep :
    let s := asked 0x10 addr5Bytes (brd storeReady)
    s.inHand 0x10 addr5Bytes ∧ readAddr addr5Bytes 0 = some addr5 ∧ s.board.ts.init = none ∧
      State.reset.board.ts.init ≠ none := asked_meets (by decide +kernel)
theorem witness_Lists_keepRange :
    let p : List Byte := [4, 0, 203, 1, 5]
    let s := asked 0x10 p (brd storeReady)
    s.inHand 0x10 p ∧ readAddr p 0 = none ∧ s.board.ts.init = none := asked_meets (by decide +kernel)

/-- A suspect entry of the track of addr5. -/
def suspect0 : Suspect :=
  { track := addr5.track, mask := 0x20, count := 1, first := 0, last := 0, source := .live }

theorem witness_SuspectRequests :
    (∀ x ∈ [((0x0E : Byte), ([3] : List Byte)), (0x0E, [4])], (asked x.1 x.2).inHand x.1 x.2) ∧
    (3 : Byte).toNat ≤ 3 ∧ 3 < (4 : Byte).toNat := asked_each (by decide +kernel)
theorem witness_SuspectRequests_drop :
    let s := asked 0x0F [0, 0, 203, 1] (brd fun b => { b with re := { b.re with suspects := [suspect0] } })
    s.inHand 0x0F [0, 0, 203, 1] ∧ readTrack [0, 0, 203, 1] 0 = some addr5.track ∧
      (∃ x ∈ s.board.re.suspects, x.track = addr5.track) ∧
      ∀ x ∈ State.reset.board.re.suspects, x.track ≠ addr5.track :=
  asked_meets (by decide +kernel)
theorem witness_SuspectRequests_range :
    ∀ p ∈ [([4, 0, 203, 1] : List Byte), [0, 2, 0, 1], [0, 0, 203, 4]],
      (asked 0x0F p).inHand 0x0F p ∧ readTrack p 0 = none := by
  intro p hp
  simp only [List.mem_cons, List.not_mem_nil, or_false] at hp
  rcases hp with rfl | rfl | rfl <;> exact asked_meets (by decide +kernel)

/-- The payload of the SET_PROFILE of section 1.6 but for drive 0 and the period, given as two bytes. -/
def profileBytes (sectors : Byte) (period : List Byte) : List Byte := [0, 1, 44, 2, sectors, 0, 77] ++ period

theorem witness_SetProfile :
    let p := profileBytes 8 [0x61, 0xA8]
    let s := asked 0x04 p
    s.inHand 0x04 p ∧ readDrive p 0 = some 0 ∧
      readProfile p = some (⟨300, 2, 8, some 77, 25000⟩, false) ∧ (s.board.drv 0).lp.buf.state = .invalid ∧
      (25000 : Nat) = (s.board.drv 0).profile.period ∧
      ¬((s.board.drv 0).da.owner.engine = true ∨ (s.board.drv 0).da.owner = .taking ∨
        ∃ j ∈ s.board.re.jobs, j.drive = 0) :=
  asked_meets (by decide +kernel)
theorem witness_SetProfile_range :
    let p := profileBytes 7 [0x61, 0xA8]
    (asked 0x04 p).inHand 0x04 p ∧ readDrive p 0 = some 0 ∧ readProfile p = none :=
  asked_meets (by decide +kernel)
theorem witness_SetProfile_drive :
    let p : List Byte := 4 :: (profileBytes 8 [0x61, 0xA8]).drop 1
    (asked 0x04 p).inHand 0x04 p ∧ 3 < (p.getD 0 0).toNat := asked_meets (by decide +kernel)

theorem witness_SetProfile_engaged :
    let p := profileBytes 8 [0x61, 0xA8]
    let s := asked 0x04 p (brd (withJob (salv0 .waiting [])))
    s.inHand 0x04 p ∧ ∃ j ∈ s.board.re.jobs, j.drive = 0 := asked_meets (by decide +kernel)

theorem witness_SetShare :
    ∀ o ∈ [Owner.liveIdle, .offline, .engineRestore, .liveBusy],
      let p : List Byte := [0, 3, 1, 2, 1, 1, 0, 30, 1, 244, 0, 99]
      let s := asked 0x07 p (arb0 fun da => { da with owner := o })
      s.inHand 0x07 p ∧ readDrive p 0 = some 0 ∧
        readShare p = some (⟨.liveOnly, true, .c, true, true, 30, 500, 100⟩, true) ∧
        (s.board.drv 0).lp.buf.state = .invalid ∧ (s.board.drv 0).da.held = false ∧
        s.board.re.jobs = [] :=
  fun _ _ => asked_meets ⟨⟨rfl, rfl, by decide +kernel⟩, rfl, by decide +kernel, rfl, rfl, rfl⟩
theorem witness_SetShare_range :
    let p : List Byte := [0, 4, 1, 2, 1, 1, 0, 30, 1, 244, 0, 99]
    (asked 0x07 p).inHand 0x07 p ∧ readDrive p 0 = some 0 ∧ readShare p = none :=
  asked_meets (by decide +kernel)
theorem witness_SetShare_drive :
    let p : List Byte := [4, 0, 1, 2, 1, 1, 0, 30, 1, 244, 0, 99]
    (asked 0x07 p).inHand 0x07 p ∧ 3 < (p.getD 0 0).toNat := asked_meets (by decide +kernel)

theorem witness_SetLadderSolveScrub :
    (∀ x ∈ [((0x05 : Byte), ([11, 0] : List Byte)), (0x18, [0, 15]), (0x18, [0, 0]), (0x18, [4, 0]),
        (0x08, [1, 0xFB, 0, 1, 5]), (0x08, [0])], (asked x.1 x.2).inHand x.1 x.2) ∧
    readLadder [1, 0xFB, 0, 1, 5] = some ([⟨-4, .zero, true, 4⟩], true) ∧ readLadder [0] = none ∧
    ∀ j ∈ State.reset.board.re.jobs, j.kind ≠ .salvage := asked_each (by decide +kernel)

/-- A FILE_JOB of a SURVEY of drive 0 from cylinder 0 to the one in the given bytes. -/
def surveyBytes (high low : Byte) : List Byte := [2, 0, 0, 0, 0, high, low, 0, 0, 0, 0, 0]

/-- The premises of FileSurvey and the test of its range, for a payload whose end cylinder is given. -/
theorem witness_FileSurvey :
    ∀ n ∈ [(1, 154, 410), (1, 155, 411)],
      let p := surveyBytes (byteOf n.1) (byteOf n.2.1)
      let s := asked 0x0A p
      s.inHand 0x0A p ∧ (readFile p).map (fun x => (x.1.kind, x.1.cyl, x.1.endCyl.val)) = some (.survey, 0, n.2.2) ∧
        u8 p 0 = 2 ∧ (s.board.drv 0).da.lost = false := by
  intro n hn
  simp only [List.mem_cons, List.not_mem_nil, or_false] at hn
  rcases hn with rfl | rfl <;>
    exact asked_meets (by decide +kernel)
theorem witness_FileSurvey_second :
    let s := asked 0x0A (surveyBytes 1 154) (brd (withJob (job0 .survey .waiting [])))
    s.inHand 0x0A (surveyBytes 1 154) ∧ ∃ j ∈ s.board.re.jobs, j.kind = .survey ∧ j.drive = 0 :=
  asked_meets (by decide +kernel)
theorem witness_FileSurvey_range :
    ∀ p ∈ [([3, 0, 0, 0, 0, 1, 154, 0, 0, 0, 0, 0] : List Byte), [2, 4, 0, 0, 0, 1, 154, 0, 0, 0, 0, 0],
        [2, 0, 0, 0, 0, 2, 0, 0, 0, 0, 0, 0]],
      (asked 0x0A p).inHand 0x0A p ∧ 2 ≤ u8 p 0 ∧ readFile p = none := by
  intro p hp
  simp only [List.mem_cons, List.not_mem_nil, or_false] at hp
  rcases hp with rfl | rfl | rfl <;> exact asked_meets (by decide +kernel)

theorem witness_FileSurvey_noRoom :
    let s := asked 0x0A (surveyBytes 1 154) (brd fun b =>
      { b with re := { b.re with jobs := List.replicate 8 (salv0 .waiting []) } })
    s.inHand 0x0A (surveyBytes 1 154) ∧ 8 ≤ s.board.re.jobs.length ∧
      ¬∃ j ∈ s.board.re.jobs, j.kind = .survey ∧ j.drive = 0 :=
  asked_meets (by decide +kernel)

set_option synthInstance.maxSize 512 in
theorem witness_FileSurvey_passEnd :
    ∀ q ∈ [(203, 0, false), (203, 1, false), (203, 1, true)], ∀ mask ∈ [0, 0x2020],
      let j := { job0 .survey .active [] with curCyl := q.1, curHead := q.2.1 }
      let s := let s := passEnd0 j q.2.2
        { s with board := s.board.modDa 0 fun da => { da with surveyMask := BitVec.ofNat 16 mask } }
      let da := (s.board.drv 0).da
      let track : Track := { drive := 0, cyl := Fin.ofNat 512 da.plan.cyl, head := Fin.ofNat 4 da.plan.head }
      s.quiet ∧ s.board.re.lawful ∧ over0 (s.board.drv 0) ∧ still s ∧ da.served = some ⟨0, 1⟩ ∧ da.missed = q.2.2 ∧ s.board.job 0 = some j ∧
        j.kind = .survey ∧ j.drive = 0 ∧ s.board.trackJob track = none ∧ s.board.re.suspects = [] ∧
        s.board.su.queue = [] ∧ s.board.su.flight = none ∧ s.board.noAuto ∧ j.sectors = [] ∧ j.relay = [] := by
  decide +kernel
theorem witness_FileSurvey_noSlot :
    let j := { job0 .survey .active [] with curCyl := 203 }
    let s := doubtEnd0 j
    s.quiet ∧ s.board.re.lawful ∧ over0 (s.board.drv 0) ∧ still s ∧ (s.board.drv 0).da.slots = 0 ∧
      (s.board.drv 0).da.served = some ⟨0, 1⟩ ∧ s.board.job 0 = some j ∧ j.curCyl ≤ j.endCyl.val := by decide +kernel

/-- The board with a job, and drive 0 with an owner, the job served or not. -/
def cancels0 (j : Job) (o : Owner) (served : Bool) : State :=
  asked 0x0B [1] (brd fun b => (withJob j b).modDa 0 fun da =>
    { da with owner := o, served := if served then some ⟨0, 1⟩ else none })

/-- The premises common to the clauses of CancelAndClear on a live job. -/
abbrev cancelled0 (j : Job) (s : State) : Prop :=
  s.board.jobById (1 : Byte).toNat = some j ∧ s.board.job j.serial = some j ∧ s.board.noAuto ∧
    s.board.su.flight = none ∧ s.board.ts.ops = [] ∧
    ∀ e, (s.board.drv e).rc.buf0.state ≠ .writing ∧ (s.board.drv e).rc.buf1.state ≠ .writing ∧
      (s.board.drv e).lp.diversion = none

theorem witness_CancelAndClear_ends :
    ∀ p ∈ [(JobState.waiting, Owner.liveIdle, false), (.settling, .enginePass, false), (.active, .enginePass, true),
        (.active, .enginePosition, true)],
      ∀ j ∈ [job0 .survey p.1 [], salv0 p.1 [held0 5120], { relay0 .prepare (some (held0 5120)) false with state := p.1 }],
        let s := cancels0 j p.2.1 p.2.2
        cancelled0 j s ∧ j.written = false ∧ (s.board.drv 0).da.owner = p.2.1 ∧
          ((s.board.drv 0).da.served = some ⟨0, 1⟩ ↔ p.2.2 = true) := by decide +kernel
theorem witness_CancelAndClear (j : Job) (o : Owner) (served : Bool) : (cancels0 j o served).inHand 0x0B [1] :=
  asked_inHand _ _ _ rfl rfl (by decide +kernel)
theorem witness_CancelAndClear_written :
    let j := { relay0 .verify none false with state := .waiting, written := true }
    let s := cancels0 j .liveIdle false
    cancelled0 j s ∧ j.kind = .relay ∧ j.written = true ∧ (s.board.drv 0).da.served = none ∧
      (∀ i ∈ s.board.re.jobs, i.serial = j.serial) ∧ s.board.re.suspects = [] ∧
      (s.board.drv j.drive).profile.sectors ≤ 16 := by decide +kernel
theorem witness_CancelAndClear_none :
    (∀ x ∈ [((0x0B : Byte), ([0] : List Byte)), (0x17, [])], (asked x.1 x.2).inHand x.1 x.2) ∧
    State.reset.board.jobById (0 : Byte).toNat = none := asked_each (by decide +kernel)

/-- The payload of a RELEASE_SECTOR of addr5. -/
def releaseBytes (force : Byte) : List Byte := addr5Bytes ++ [force]

theorem witness_ReleaseSector :
    ∀ k ∈ [KeepKind.placed, .diverted],
      let e := entry0 addr5 k
      let s := asked 0x15 (releaseBytes 1) (brd (withEntry e))
      s.inHand 0x15 (releaseBytes 1) ∧ readAddr (releaseBytes 1) 0 = some addr5 ∧
        ((releaseBytes 1).getD 5 0).toNat = 1 ∧ s.board.ts.init = none ∧
        s.board.ts.entry addr5 = some e ∧ s.board.trackJob addr5.track = none ∧
        (s.board.drv addr5.drive).lp.buf.addr = Addr.zero ∧ addr5 ≠ Addr.zero :=
  fun _ _ => asked_meets ⟨⟨rfl, rfl, by decide +kernel⟩, by decide +kernel, rfl, rfl, rfl, rfl, rfl, by decide +kernel⟩
theorem witness_ReleaseSector_denied :
    let e := entry0 addr5 .diverted
    let s := asked 0x15 (releaseBytes 0) (brd (withEntry e))
    s.inHand 0x15 (releaseBytes 0) ∧ ((releaseBytes 0).getD 5 0).toNat = 0 ∧
      s.board.ts.entry addr5 = some e ∧ e.isDiverted = true :=
  asked_meets (by decide +kernel)
theorem witness_ReleaseSector_relay :
    let j := job0 .relay .waiting []
    let s := asked 0x15 (releaseBytes 1) (brd fun b => withJob j (withEntry (entry0 addr5 .placed) b))
    s.inHand 0x15 (releaseBytes 1) ∧ s.board.ts.entry addr5 = some (entry0 addr5 .placed) ∧
      s.board.trackJob addr5.track = some j ∧ j.kind = .relay :=
  asked_meets (by decide +kernel)
theorem witness_ReleaseSector_notFound :
    let s := asked 0x15 (releaseBytes 0) (brd storeReady)
    s.inHand 0x15 (releaseBytes 0) ∧ s.board.ts.init = none ∧ s.board.ts.entry addr5 = none :=
  asked_meets (by decide +kernel)
theorem witness_ReleaseSector_notReady :
    let s := asked 0x15 (releaseBytes 0)
    s.inHand 0x15 (releaseBytes 0) ∧ s.board.ts.init ≠ none := asked_meets (by decide +kernel)
theorem witness_ReleaseSector_range :
    ∀ p ∈ [releaseBytes 2, [0, 0, 203, 1, 16, 1]],
      let s := asked 0x15 p (brd storeReady)
      s.inHand 0x15 p ∧ s.board.ts.init = none ∧ (readAddr p 0 = none ∨ 1 < (p.getD 5 0).toNat) := by
  intro p hp
  simp only [List.mem_cons, List.not_mem_nil, or_false] at hp
  rcases hp with rfl | rfl <;> exact asked_meets (by decide +kernel)

/-- The payload of a STORE_SECTOR of addr5. -/
def storeBytes : List Byte := addr5Bytes ++ List.replicate 256 0

theorem witness_StoreRequests_notReady :
    (∀ x ∈ [((0x11 : Byte), addr5Bytes), (0x12, [1, 5, 0]), (0x13, storeBytes), (0x14, addr5Bytes ++ [127, 0, 1])],
      (asked x.1 x.2).inHand x.1 x.2) ∧
    (asked 0x11 addr5Bytes).quiet ∧ State.reset.board.ts.init ≠ none := asked_each (by decide +kernel)
theorem witness_StoreRequests_fetch :
    let s := asked 0x11 addr5Bytes (brd (withEntry (entry0 addr5 .placed)))
    s.inHand 0x11 addr5Bytes ∧ s.quiet ∧ s.board.ts.init = none ∧ readAddr addr5Bytes 0 = some addr5 ∧
      s.board.ts.entry addr5 = some (entry0 addr5 .placed) :=
  asked_meets (by decide +kernel)
theorem witness_StoreRequests_capture :
    let j := salv0 .waiting [held0 5120]
    let s := asked 0x12 [1, 5, 0] (brd fun b => withJob j (storeReady b))
    s.inHand 0x12 [1, 5, 0] ∧ s.quiet ∧ s.board.ts.init = none ∧ s.board.jobById (u8 [1, 5, 0] 0) = some j ∧
      j.captureAt (u8 [1, 5, 0] 1) (u8 [1, 5, 0] 2) = some (held0 5120) :=
  asked_meets (by decide +kernel)
theorem witness_StoreRequests_store :
    let s := asked 0x13 storeBytes (brd storeReady)
    s.inHand 0x13 storeBytes ∧ s.quiet ∧ readAddr storeBytes 0 = some addr5 ∧
      withinProfile (s.board.drv addr5.drive).profile addr5.cyl.val addr5.head.val addr5.sector.val = true ∧
      (s.board.ts.entry addr5).any (·.isDiverted) = false ∧ s.board.ts.freeKeepSlot = some 0 :=
  asked_meets (by decide +kernel)
theorem witness_StoreRequests_patch :
    let p := addr5Bytes ++ [127, 0, 1]
    let e := entry0 addr5 .placed
    let s := asked 0x14 p (brd (withEntry e))
    s.inHand 0x14 p ∧ s.quiet ∧ readAddr p 0 = some addr5 ∧ u8 p 5 ≤ 127 ∧ s.board.ts.entry addr5 = some e ∧
      e.damaged = false ∧ e.kind ≠ .diverted :=
  asked_meets (by decide +kernel)
theorem witness_StoreRequests_addressRange :
    ∀ q ∈ [((0x11 : Byte), ([4, 0, 203, 1, 5] : List Byte)), (0x13, 0 :: 2 :: storeBytes.drop 2),
        (0x14, [0, 0, 203, 1, 16, 127, 0, 1])],
      let s := asked q.1 q.2 (brd storeReady)
      s.inHand q.1 q.2 ∧ s.quiet ∧ s.board.ts.init = none ∧ readAddr q.2 0 = none := by
  intro q hq
  simp only [List.mem_cons, List.not_mem_nil, or_false] at hq
  rcases hq with rfl | rfl | rfl <;> exact asked_meets (by decide +kernel)
theorem witness_StoreRequests_notFound :
    ∀ q ∈ [((0x11 : Byte), addr5Bytes), (0x14, addr5Bytes ++ [127, 0, 1])],
      let s := asked q.1 q.2 (brd storeReady)
      s.inHand q.1 q.2 ∧ s.quiet ∧ s.board.ts.init = none ∧ readAddr q.2 0 = some addr5 ∧
        s.board.ts.entry addr5 = none := by
  intro q hq
  simp only [List.mem_cons, List.not_mem_nil, or_false] at hq
  rcases hq with rfl | rfl <;> exact asked_meets (by decide +kernel)
theorem witness_StoreRequests_noCapture :
    ∀ q ∈ [([2, 5, 0] : List Byte), [1, 5, 1], [1, 7, 0]],
      let s := asked 0x12 q (brd fun b => withJob (salv0 .waiting [held0 5120]) (storeReady b))
      s.inHand 0x12 q ∧ s.quiet ∧ s.board.ts.init = none ∧
        (s.board.jobById (q.getD 0 0).toNat).bind (·.captureAt (q.getD 1 0).toNat (q.getD 2 0).toNat) = none := by
  intro q hq
  simp only [List.mem_cons, List.not_mem_nil, or_false] at hq
  rcases hq with rfl | rfl | rfl <;> exact asked_meets (by decide +kernel)
/-- A STORE_SECTOR beyond the profile, of a DIVERTED entry, and with every keep slot in use. -/
theorem witness_StoreRequests_storeRefused :
    ∀ n ∈ [0, 1, 2],
      let p := if n = 0 then [0, 0, 203, 1, 15] ++ List.replicate 256 0 else storeBytes
      let s := asked 0x13 p (brd fun b =>
        if n = 1 then withEntry (entry0 addr5 .diverted) b
        else { storeReady b with ts := { (storeReady b).ts with
          keep := (List.range Config.keepSlots).map fun m => (m, .entry) } })
      let a := if n = 0 then { addr5 with sector := 15 } else addr5
      s.inHand 0x13 p ∧ s.quiet ∧ s.board.ts.init = none ∧ readAddr p 0 = some a ∧
        (withinProfile (s.board.drv a.drive).profile a.cyl.val a.head.val a.sector.val = false ↔ n = 0) ∧
        ((s.board.ts.entry a).any (·.isDiverted) = true ↔ n = 1) ∧
        (n = 2 → s.board.ts.freeKeepSlot = none) := by
  intro n hn
  simp only [List.mem_cons, List.not_mem_nil, or_false] at hn
  rcases hn with rfl | rfl | rfl <;> exact asked_meets (by decide +kernel)
theorem witness_StoreRequests_patchRefused :
    ∀ q ∈ [(KeepKind.placed, true, (127 : Byte)), (.diverted, false, 0), (.placed, false, 128)],
      let p := addr5Bytes ++ [q.2.2, 0, 1]
      let e := { entry0 addr5 q.1 with damaged := q.2.1 }
      let s := asked 0x14 p (brd (withEntry e))
      s.inHand 0x14 p ∧ s.quiet ∧ s.board.ts.init = none ∧ readAddr p 0 = some addr5 ∧
        (127 < (p.getD 5 0).toNat ↔ q.2.2 = 128) ∧ s.board.ts.entry addr5 = some e ∧
        (q.2.2 ≠ 128 → e.damaged = true ∨ e.kind = .diverted) := by
  intro q hq
  simp only [List.mem_cons, List.not_mem_nil, or_false] at hq
  rcases hq with rfl | rfl | rfl <;> exact asked_meets (by decide +kernel)

theorem witness_BadRequest :
    (Instr.getDrive, (0x03 : Byte)) ∈ requestRows ∧
      (asked 0x03 [0, 0]).link.inHand = some ⟨0x03, 7, [0, 0]⟩ ∧ lengthFits 0x03 [0, 0] = false ∧
      (asked 0x1A []).link.inHand = some ⟨0x1A, 7, []⟩ ∧ 0x19 < (0x1A : Byte).toNat ∧
      (asked 0x19 []).link.inHand = some ⟨0x19, 7, []⟩ ∧ (0x19 : Byte) ≠ 0x03 := by decide +kernel

/-- A FILE_JOB of a SALVAGE of the track of addr5 with target sectors 5 and 13, grade B, 4 passes. -/
def salvageBytes : List Byte := [0, 0, 0, 203, 1, 0, 0, 0x20, 0x20, 1, 4, 0]

theorem witness_FileSalvage :
    let p := salvageBytes
    let r : FileReq :=
      { kind := .salvage, drive := 0, cyl := 203, head := 1, endCyl := 0, target := 0x2020, accept := .b,
        repeats := 4, retain := false }
    let s := asked 0x0A p (brd storeReady)
    s.inHand 0x0A p ∧ readFile p = some (r, false) ∧ (s.board.drv r.drive).da.lost = false ∧
      s.board.gateOnTrack r.track = false ∧ s.board.ts.init = none ∧
      trackWithin (s.board.drv r.drive).profile r.cyl.val r.head.val = true ∧
      s.board.trackJob r.track = none ∧ s.board.re.jobs.length < 8 ∧ r.target ≠ 0 ∧
      (∀ k ∈ maskSectors r.target 16, k < (s.board.drv r.drive).profile.sectors ∧
        s.board.heldByHost (r.track.addr k) = false) ∧
      (maskSectors r.target 16).length ≤ Config.keepSlots - s.board.ts.keep.length ∧
      (s.board.ts.keep.map (·.1)).Pairwise (· < ·) := asked_meets (by decide +kernel)
theorem witness_FileSalvage_relay :
    let p : List Byte := [1, 0, 0, 203, 1, 0, 0, 0, 0, 0, 0, 1]
    let s := asked 0x0A p (brd storeReady)
    s.inHand 0x0A p ∧
      ((readFile p).any fun x =>
        x.1.kind = .relay && x.1.track = addr5.track && (s.board.drv x.1.drive).da.lost = false) = true ∧
      s.board.gateOnTrack addr5.track = false ∧ s.board.ts.init = none ∧
      trackWithin (s.board.drv 0).profile 203 1 = true ∧ s.board.trackJob addr5.track = none ∧
      s.board.re.jobs.length < 8 := asked_meets (by decide +kernel)
/-- The same request with its kind, drive, grade and target bytes replaced. -/
def fileBytes (kind drive grade : Byte) (target : List Byte) : List Byte :=
  [kind, drive, 0, 203, 1, 0, 0] ++ target ++ [grade, 4, 0]

theorem witness_FileSalvage_bytes :
    ∀ ready ∈ [true, false], ∀ p ∈ [fileBytes 0 4 1 [0x20, 0x20], fileBytes 0 0 3 [0x20, 0x20], [1, 0, 2, 0, 1, 0, 0, 0, 0, 0, 0, 0],
        [1, 0, 0, 203, 1, 0, 0, 0, 0, 0, 0, 2]],
      let s := asked 0x0A p (brd fun b => if ready then storeReady b else b)
      s.inHand 0x0A p ∧ u8 p 0 ≤ 1 ∧ readFile p = none ∧ (s.board.ts.init = none ↔ ready = true) := by
  intro ready hr p hp
  simp only [List.mem_cons, List.not_mem_nil, or_false] at hr hp
  rcases hr with rfl | rfl <;> rcases hp with rfl | rfl | rfl | rfl <;> exact asked_meets (by decide +kernel)

/-- What each refusal of a SALVAGE of addr5's track rests on: an empty target set, a target above the profile, a job on
the track, a full table, no free keep slot; and the gate that makes the request wait. -/
theorem witness_FileSalvage_refused :
    ∀ n ∈ [0, 1, 2, 3, 4, 5],
      let p := fileBytes 0 0 1 (if n = 0 then [0, 0] else if n = 1 then [0x40, 0x20] else [0x20, 0x20])
      let s := asked 0x0A p (brd fun b =>
        let b := storeReady b
        if n = 2 then withJob (salv0 .waiting []) b
        else if n = 3 then
          { b with re := { b.re with jobs := List.replicate 8 { salv0 .waiting [] with cyl := 10 } } }
        else if n = 4 then { b with ts := { b.ts with keep := (List.range 5119).map fun m => (m, .entry) } }
        else if n = 5 then b.modLp 0 fun lp => { lp with gate := true, cmd := { lp.cmd with target := addr5 } }
        else b)
      let pr := (s.board.drv 0).profile
      let targets := maskSectors (BitVec.ofNat 16 (256 * (p.getD 7 0).toNat + (p.getD 8 0).toNat)) 16
      s.inHand 0x0A p ∧ u8 p 0 ≤ 1 ∧ s.quiet ∧ s.board.ts.init = none ∧ trackWithin pr 203 1 = true ∧
        ((targets = [] ∨ ∃ k ∈ targets, pr.sectors ≤ k) ↔ n < 2) ∧
        (s.board.trackJob addr5.track ≠ none ↔ n = 2) ∧
        ((8 ≤ s.board.re.jobs.length ∨ Config.keepSlots - s.board.ts.keep.length < 2) ↔ n = 3 ∨ n = 4) ∧
        (s.board.gateOnTrack addr5.track = true ↔ n = 5) := by
  intro n hn
  simp only [List.mem_cons, List.not_mem_nil, or_false] at hn
  rcases hn with rfl | rfl | rfl | rfl | rfl | rfl <;> exact asked_meets (by decide +kernel)

end Sys2Proof.Tests
end

section
/-! PROOFS. How a property of the board is carried over a step of each shape. -/

namespace Sys2Proof.Machine

/-- The board with perhaps other notices raised and another answer. -/
def Board.sameTables (b c : Board) : Prop := ∃ o a, c = { b with out := o, answer := a }

theorem Board.sameTables.refl (b : Board) : b.sameTables b := ⟨b.out, b.answer, rfl⟩

theorem Board.sameTables.note (b : Board) (d : Option DriveNo) (n : NoticeBody) : b.sameTables (b.note d n) :=
  ⟨_, b.answer, rfl⟩

theorem Board.sameTables.reply (b : Board) (st : Status) (a : Bool) (l : List Byte) : b.sameTables (b.reply st a l) :=
  ⟨b.out, _, rfl⟩

theorem Board.sameTables.ok (b : Board) (l : List Byte) : b.sameTables (b.ok l) := ⟨b.out, _, rfl⟩

theorem Board.sameTables.deny (b : Board) (st : Status) : b.sameTables (b.deny st) := ⟨b.out, _, rfl⟩

/-- A property of the board that the end of a step keeps, and that does not read the notices, the answer or the
time. -/
structure Board.Steady (P : Board → Prop) : Prop where
  post : ∀ {b c : Board}, P b → b.sameTables c → P c
  tick : ∀ {b : Board}, P b → P { b with now := b.now + 1 }
  settled : ∀ {b : Board} (s : State) (l : Link) (m : Dram), P b → P (settle s b l m).board

/-! ### Steps of each shape -/

section
variable {P : Board → Prop} (hP : Board.Steady P) {s t : State}
include hP

theorem Board.Steady.onBoard {f : Board → Board} (e : onBoard s f = .next t) (hf : P (f s.board)) : P t.board := by
  rw [onBoard_next] at e
  cases e
  exact hP.settled _ _ _ hf

theorem Board.Steady.onLink {f : Board → Link → Board × Link} (e : onLink s f = .next t) (h : P s.board)
    (hf : s.board.sameTables (f s.board s.link).1) : P t.board := by
  rw [onLink_next] at e
  cases e
  exact hP.settled _ _ _ (hP.post h hf)

theorem Board.Steady.onStore {f : Board → Dram → Except Fault (Board × Dram)}
    (e : onStore s f = .next t) (hf : ∀ b m, f s.board s.dram = .ok (b, m) → P b) : P t.board := by
  unfold Machine.onStore at e
  split at e
  · rename_i hb
    cases e
    exact hP.settled _ _ _ (hf _ _ hb)
  · cases e

theorem Board.Steady.handleRequest {kind : Byte} {f : Board → List Byte → Board}
    (e : handleRequest s kind f = .next t) (h : P s.board) (hf : ∀ p, P (f s.board p)) : P t.board := by
  unfold Machine.handleRequest at e
  rw [onLink_next] at e
  cases e
  refine hP.settled _ _ _ ?_
  repeat' split
  · exact hf _
  · exact hP.post h (.deny _ _)
  · exact h
  · exact h

theorem Board.Steady.enquiry {kind : Byte} {f : Board → List Byte → Board}
    (e : Machine.handleRequest s kind f = .next t) (h : P s.board) (hf : ∀ p, s.board.sameTables (f s.board p)) :
    P t.board :=
  hP.handleRequest e h fun p => hP.post h (hf p)

end

/-- What every command and the passing of time keep, a step keeps. -/
theorem Board.Steady.step {P : Board → Prop} (hP : Board.Steady P)
    (hexec : ∀ (i : Instr) (s t : State), P s.board → exec i s = .next t → P t.board) {s t : State} (h : P s.board)
    (e : step s = .next t) : P t.board := by
  unfold Machine.step at e
  split at e
  · cases e; exact hP.tick h
  · rename_i rest _
    exact hexec _ { s with pending := rest } _ h e

/-! ### What the link leaves of the board (chapter 10) -/

theorem discardFrame_sameTables (b : Board) (l : Link) (c : BadCause) : b.sameTables (discardFrame b l c).1 :=
  .note b _ _

theorem offerRequest_sameTables (b : Board) (l : Link) (r : Request) : b.sameTables (offerRequest b l r).1 := by
  unfold offerRequest
  repeat' split
  · exact .refl b
  · exact .refl b
  · exact .note b _ _

theorem endFrame_sameTables (b : Board) (l : Link) (w : Word) : b.sameTables (endFrame b l w).1 := by
  unfold endFrame
  dsimp only
  repeat' split
  · exact discardFrame_sameTables b l _
  · exact offerRequest_sameTables b _ _
  · exact discardFrame_sameTables b l _
  · exact discardFrame_sameTables b l _

theorem takeByte_sameTables (b : Board) (l : Link) (x : Byte) : b.sameTables (takeByte b l x).1 := by
  have keep (k : Link) : b.sameTables (b, k).1 := .refl b
  unfold takeByte
  dsimp only
  repeat' split
  · exact keep _
  · exact keep _
  · exact keep _
  · exact keep _
  · exact discardFrame_sameTables b _ _
  · exact keep _
  · exact keep _
  · exact keep _
  · exact keep _
  · exact keep _
  · exact keep _
  · exact keep _
  · exact endFrame_sameTables b l _

theorem takeLastByte_sameTables (b : Board) (l : Link) (x : Byte) : b.sameTables (takeLastByte b l x).1 := by
  unfold takeLastByte
  split
  · exact endFrame_sameTables b l _
  · exact .refl b

theorem lineBreak_sameTables (b : Board) (l : Link) : b.sameTables (lineBreak b l).1 := by
  unfold lineBreak
  split
  · exact .refl b
  · exact .note b _ _

theorem restartRequest_sameTables (b : Board) (l : Link) : b.sameTables (restartRequest b l).1 := by
  unfold restartRequest
  repeat' split
  · exact .reply b _ _ _
  · exact .reply b _ _ _
  · exact .deny b _
  · exact .refl b
  · exact .refl b

/-! ### The enquiries (R166, R168..R171) -/

theorem Board.getDrive_sameTables (b : Board) (p : List Byte) : b.sameTables (b.getDrive p) := by
  unfold Board.getDrive
  split
  · exact .ok b _
  · exact .deny b _

theorem Board.getProfile_sameTables (b : Board) (p : List Byte) : b.sameTables (b.getProfile p) := by
  unfold Board.getProfile
  split
  · exact .ok b _
  · exact .deny b _

theorem Board.getJob_sameTables (b : Board) (p : List Byte) : b.sameTables (b.getJob p) := by
  unfold Board.getJob
  dsimp only
  repeat' split
  · exact .deny b _
  · exact .deny b _
  · exact .ok b _
  · exact .deny b _
  · exact .ok b _
  · exact .deny b _
  · exact .ok b _
  · exact .deny b _

theorem Board.listSuspects_sameTables (b : Board) (p : List Byte) : b.sameTables (b.listSuspects p) := by
  unfold Board.listSuspects
  split
  · exact .deny b _
  · exact .ok b _

theorem Board.listKeep_sameTables (b : Board) (p : List Byte) : b.sameTables (b.listKeep p) := by
  unfold Board.listKeep
  repeat' split
  · exact .deny b _
  · exact .deny b _
  · exact .ok b _

end Sys2Proof.Machine
end

section
/-! PROOFS. The invariants of the tables as one predicate, and what keeps it: the primitive updates of the board. -/

namespace Sys2Proof.Machine

/-! ### Slots of the store (R128) -/

@[simp] theorem slotIn_none : slotIn none := fun _ h => by cases h

@[simp] theorem slotIn_some {n : Nat} : slotIn (some n) ↔ n < Config.allSlots :=
  ⟨fun h => h n rfl, fun h _ e => by cases e; exact h⟩

/-- An access lies in the store. -/
def Access.inStore : Access → Prop
  | .read slot cell => cellAddress slot cell < Config.storeCells
  | .write slot cell _ => cellAddress slot cell < Config.storeCells

theorem Board.inStore_iff {b : Board} :
    b.inStore ↔ b.sk.address < Config.storeCells ∧ ∀ op ∈ b.ts.ops, ∀ x ∈ op.todo, x.inStore := by
  refine and_congr_right fun _ => forall₄_congr fun op _ x _ => ?_
  cases x <;> exact Iff.rfl

theorem cellAddress_lt {slot cell : Nat} (hs : slot < Config.allSlots) (hc : cell < Config.slotCells) :
    cellAddress slot cell < Config.storeCells := by
  simp only [cellAddress, Config.allSlots, Config.slotCells, Config.storeCells] at *; omega

theorem slotReads_inStore {slot n : Nat} (hs : slot < Config.allSlots) (hn : n ≤ Config.slotCells) :
    ∀ x ∈ slotReads slot n, x.inStore := by
  intro x hx
  obtain ⟨c, hc, rfl⟩ := List.mem_map.1 hx
  exact cellAddress_lt hs (lt_of_lt_of_le (List.mem_range.1 hc) hn)

/-- Writes of consecutive cells from one on. -/
theorem zipIdx_writes_inStore {slot k : Nat} (ws : List (BitVec 32)) (hs : slot < Config.allSlots)
    (hk : ws.length + k ≤ Config.slotCells) :
    ∀ x ∈ ws.zipIdx.map (fun (w, c) => Access.write slot (c + k) w), x.inStore := by
  intro x hx
  obtain ⟨⟨w, c⟩, hc, rfl⟩ := List.mem_map.1 hx
  have := List.snd_lt_of_mem_zipIdx hc
  exact cellAddress_lt hs (by simp only at this ⊢; omega)

@[simp] theorem packWords_length (img : List Word) : (packWords img).length = 66 := by simp [packWords]

@[simp] theorem packValues_length (vals : List Nat) : (packValues vals).length = 17 := by simp [packValues]

theorem slotWrites_inStore {slot : Nat} (hs : slot < Config.allSlots) (img : List Word) (vals : List Nat) :
    ∀ x ∈ slotWrites slot img vals, x.inStore :=
  zipIdx_writes_inStore (k := 0) _ hs (by simp)

/-- The lowest gap of a list is a slot the list leaves free, so a free slot is one of the store. -/
theorem Store.freeKeepSlot_lt {ts : Store} {n : Nat} (h : ts.freeKeepSlot = some n) : n < Config.allSlots := by
  unfold Store.freeKeepSlot at h
  split at h
  · cases h
  · dsimp only at h
    split at h
    · cases h; rename_i hn; exact hn.trans (by decide)
    · cases h

theorem Store.freePoolSlot_lt {ts : Store} {n : Nat} (h : ts.freePoolSlot = some n) : n < Config.allSlots := by
  unfold Store.freePoolSlot at h
  dsimp only at h
  split at h
  · cases h; assumption
  · cases h

/-! ### Records and their slots -/

/-- The slots of a SALVAGE sector record. -/
def SalvageSector.slotsIn (r : SalvageSector) : Prop := slotIn r.slot ∧ ∀ c ∈ r.caps, slotIn (some c.slot)

/-- The slots of a RELAY sector record. -/
def RelaySector.slotsIn (r : RelaySector) : Prop := slotIn r.aside ∧ slotIn (r.image.map (·.slot))

/-- A SALVAGE names no sector twice and holds at most 8 captures for each (R98). -/
def Job.setsLawful (j : Job) : Prop := (j.sectors.map (·.sector)).Nodup ∧ ∀ r ∈ j.sectors, r.caps.length ≤ 8

/-- The fields that tell which job it is, and of what. -/
def Job.sameName (j j' : Job) : Prop :=
  j'.id = j.id ∧ j'.serial = j.serial ∧ j'.kind = j.kind ∧ j'.drive = j.drive ∧ j'.cyl = j.cyl ∧ j'.head = j.head

/-- What a change of a job must keep: its slots in the store where S asks for it, and its name and sets where L
does. -/
def Job.keeps (S L : Prop) (j j' : Job) : Prop :=
  (S → j.slotsIn → j'.slotsIn) ∧ (L → j.sameName j' ∧ (j.setsLawful → j'.setsLawful))

theorem Job.sameName.refl (j : Job) : j.sameName j := ⟨rfl, rfl, rfl, rfl, rfl, rfl⟩

theorem Job.sameName.onTrack {j j' : Job} (h : j.sameName j') (t : Track) : j'.onTrack t = j.onTrack t := by
  obtain ⟨-, -, hk, hd, hc, hh⟩ := h
  have ht : j'.track = j.track := by simp only [Job.track, hd, hc, hh]
  unfold Job.onTrack
  rw [hk, ht]

/-- A change that leaves a job's name and its sector records. -/
theorem Job.keeps_of_same {S L : Prop} {j j' : Job} (hn : j.sameName j') (hs : j'.sectors = j.sectors)
    (hr : j'.relay = j.relay) : j.keeps S L j' := by
  unfold Job.keeps Job.slotsIn Job.setsLawful
  rw [hs, hr]
  exact ⟨fun _ h => h, fun _ => ⟨hn, fun h => h⟩⟩

theorem Job.keeps.trans {S L : Prop} {j j' j'' : Job} (h : j.keeps S L j') (h' : j'.keeps S L j'') :
    j.keeps S L j'' := by
  refine ⟨fun hS hj => h'.1 hS (h.1 hS hj), fun hL => ⟨?_, fun hj => (h'.2 hL).2 ((h.2 hL).2 hj)⟩⟩
  obtain ⟨h1, h2, h3, h4, h5, h6⟩ := (h.2 hL).1
  obtain ⟨g1, g2, g3, g4, g5, g6⟩ := (h'.2 hL).1
  exact ⟨g1.trans h1, g2.trans h2, g3.trans h3, g4.trans h4, g5.trans h5, g6.trans h6⟩

/-- A SALVAGE sector record whose slots are among those it had, no capture of it new. -/
def SalvageSector.shrinks (r r' : SalvageSector) : Prop :=
  r'.sector = r.sector ∧ (r'.slot = r.slot ∨ r'.slot = none) ∧
    (r'.caps.map (·.slot)).Sublist (r.caps.map (·.slot))

theorem SalvageSector.shrinks.slotsIn {r r' : SalvageSector} (h : r.shrinks r') (hr : r.slotsIn) : r'.slotsIn := by
  obtain ⟨-, hslot, hcaps⟩ := h
  refine ⟨?_, fun c hc => ?_⟩
  · obtain e | e := hslot
    · rw [e]; exact hr.1
    · rw [e]; exact slotIn_none
  · obtain ⟨c', hc', e⟩ := List.mem_map.1 (hcaps.subset (List.mem_map_of_mem hc))
    rw [← e]; exact hr.2 c' hc'

theorem SalvageSector.shrinks.caps {r r' : SalvageSector} (h : r.shrinks r') : r'.caps.length ≤ r.caps.length := by
  simpa using h.2.2.length_le

/-- One sector record of a job changed in its place. -/
theorem Job.modSector_keeps {S L : Prop} {j : Job} {k : Nat} {g : SalvageSector → SalvageSector}
    (hk : ∀ r, (g r).sector = r.sector)
    (hg : ∀ r ∈ j.sectors, r.sector = k →
      (S → r.slotsIn → (g r).slotsIn) ∧ (L → r.caps.length ≤ 8 → (g r).caps.length ≤ 8)) :
    j.keeps S L (j.modSector k g) := by
  unfold Job.modSector
  refine ⟨fun hS hj => ⟨fun r hr => ?_, hj.2⟩, fun hL => ⟨Job.sameName.refl j, fun hj => ⟨?_, fun r hr => ?_⟩⟩⟩
  · obtain ⟨x, hx, rfl⟩ := List.mem_map.1 hr
    split
    · rename_i e; exact (hg x hx e).1 hS (hj.1 x hx)
    · exact hj.1 x hx
  · have : (j.sectors.map fun r => if r.sector = k then g r else r).map (·.sector) = j.sectors.map (·.sector) := by
      rw [List.map_map]
      refine List.map_congr_left fun r _ => ?_
      simp only [Function.comp]
      split
      · exact hk r
      · rfl
    rw [this]; exact hj.1
  · obtain ⟨x, hx, rfl⟩ := List.mem_map.1 hr
    split
    · rename_i e; exact (hg x hx e).2 hL (hj.2 x hx)
    · exact hj.2 x hx

theorem Job.modSector_shrinks {S L : Prop} {j : Job} {k : Nat} {g : SalvageSector → SalvageSector}
    (hg : ∀ r : SalvageSector, r.shrinks (g r)) : j.keeps S L (j.modSector k g) :=
  Job.modSector_keeps (fun r => (hg r).1) fun r _ _ =>
    ⟨fun _ h => (hg r).slotsIn h, fun _ h => (hg r).caps.trans h⟩

theorem Job.modRelay_keeps {S L : Prop} {j : Job} {k : Nat} {g : RelaySector → RelaySector}
    (hg : S → ∀ r, r.slotsIn → (g r).slotsIn) : j.keeps S L (j.modRelay k g) := by
  unfold Job.modRelay
  refine ⟨fun hS hj => ⟨hj.1, fun r hr => ?_⟩, fun _ => ⟨Job.sameName.refl j, fun hj => hj⟩⟩
  obtain ⟨x, hx, rfl⟩ := List.mem_map.1 hr
  split
  · exact hg hS x (hj.2 x hx)
  · exact hj.2 x hx

/-! ### The invariants as one predicate -/

/-- The invariants of the tables, each as far as it is asked for: S the slots named (R128), O the order of the store's
tables (R128, R132, R142), L the laws of the jobs and the suspects (R90, R91, R98, R101). -/
def Board.keeps (b : Board) (S O L : Prop) : Prop :=
  (S → b.slotsIn) ∧ (O → b.ts.ordered) ∧ (L → b.re.lawful)

section
variable {b : Board} {S O L : Prop}

theorem Board.keeps.slots (h : b.keeps S O L) (hS : S) : b.slotsIn := h.1 hS

theorem Board.keeps.dirSlot (h : b.keeps S O L) {e : KeepEntry} (he : e ∈ b.ts.dir) (hS : S) :
    e.slot < Config.allSlots := by
  obtain ⟨-, hd, -⟩ := h.1 hS
  exact slotIn_some.1 (hd e he)

theorem Board.keeps.entrySlot (h : b.keeps S O L) {a : Addr} {e : KeepEntry} (he : b.ts.entry a = some e) (hS : S) :
    e.slot < Config.allSlots := h.dirSlot (List.mem_of_find?_eq_some he) hS

theorem Board.keeps.opSlot (h : b.keeps S O L) {op : StoreOp} (ho : op ∈ b.ts.ops) (hS : S) :
    op.slot < Config.allSlots := by
  obtain ⟨-, -, hop, -⟩ := h.1 hS
  exact slotIn_some.1 (hop op ho)

theorem Board.keeps.jobSlots (h : b.keeps S O L) {j : Job} (hj : j ∈ b.re.jobs) (hS : S) : j.slotsIn := by
  obtain ⟨-, -, -, hjobs, -⟩ := h.1 hS
  exact hjobs j hj

theorem Board.keeps.flightSlots (h : b.keeps S O L) {f : Flight} (hf : b.su.flight = some f) (hS : S) :
    ∀ m ∈ f.snapshot, slotIn (some m.slot) := by
  obtain ⟨-, -, -, -, hfl, -⟩ := h.1 hS
  exact hfl f hf

theorem Board.keeps.drvSlots (h : b.keeps S O L) (d : DriveNo) (hS : S) : (b.drv d).slotsIn := by
  obtain ⟨-, -, -, -, -, hd⟩ := h.1 hS
  exact hd d

/-- A job of the table, perhaps with other counters: its slots are in the store, its sets lawful, and the job of the
table with its serial has its name. -/
def Board.knows (b : Board) (S L : Prop) (j : Job) : Prop :=
  (S → j.slotsIn) ∧ (L → j.setsLawful ∧ ∀ x ∈ b.re.jobs, x.serial = j.serial → x.sameName j)

theorem Board.job_mem {n : Nat} {j : Job} (hj : b.job n = some j) : j ∈ b.re.jobs ∧ j.serial = n :=
  ⟨List.mem_of_find?_eq_some hj, by simpa using List.find?_some hj⟩

theorem Engine.lawful.serial_inj {re : Engine} (h : re.lawful) {x y : Job} (hx : x ∈ re.jobs) (hy : y ∈ re.jobs)
    (e : x.serial = y.serial) : x = y := List.inj_on_of_nodup_map h.2.1 hx hy e

theorem Board.keeps.knows (h : b.keeps S O L) {n : Nat} {j : Job} (hj : b.job n = some j) : b.knows S L j := by
  obtain ⟨hm, -⟩ := Board.job_mem hj
  refine ⟨h.jobSlots hm, fun hL => ⟨(h.2.2 hL).2.2.2.2.2.1 j hm, fun x hx e => ?_⟩⟩
  rw [(h.2.2 hL).serial_inj hx hm e]
  exact Job.sameName.refl j

/-- Another board with the same jobs, flight, drives, suspects and store tables. -/
theorem Board.keeps.congr (h : b.keeps S O L) {c : Board} (hd : c.drives = b.drives) (hre : c.re = b.re)
    (hsu : c.su.flight = b.su.flight) (hts : c.ts = b.ts) (hsk : c.sk.address = b.sk.address) : c.keeps S O L := by
  unfold Board.keeps Board.slotsIn Board.inStore Board.drv
  rw [hd, hre, hsu, hts, hsk]
  exact h

theorem Board.keeps.foldl {α : Type} {f : Board → α → Board} (l : List α) (h : b.keeps S O L)
    (hf : ∀ c : Board, ∀ x ∈ l, c.keeps S O L → (f c x).keeps S O L) : (l.foldl f b).keeps S O L := by
  induction l generalizing b with
  | nil => exact h
  | cons x l ih =>
    exact ih (hf b x (by simp) h) fun c y hy => hf c y (List.mem_cons_of_mem _ hy)

/-! ### The board's own fields -/

theorem Board.keeps.note (h : b.keeps S O L) {d : Option DriveNo} {n : NoticeBody} : (b.note d n).keeps S O L := h

theorem Board.keeps.reply (h : b.keeps S O L) {st : Status} {a : Bool} {l : List Byte} :
    (b.reply st a l).keeps S O L := h

theorem Board.keeps.deny (h : b.keeps S O L) {st : Status} : (b.deny st).keeps S O L := h

theorem Board.keeps.exam (h : b.keeps S O L) (x : Bool) : ({ b with exam := x } : Board).keeps S O L := h

/-! ### Drives -/

theorem Board.keeps.modDrv (h : b.keeps S O L) {d : DriveNo} {f : Drive → Drive}
    (hf : S → (b.drv d).slotsIn → (f (b.drv d)).slotsIn) : (b.modDrv d f).keeps S O L := by
  refine ⟨fun hS => ?_, h.2⟩
  obtain ⟨h1, h2, h3, h4, h5, h6⟩ := h.1 hS
  refine ⟨h1, h2, h3, h4, h5, fun e => ?_⟩
  by_cases he : e = d
  · subst he
    rw [Board.modDrv_same]
    exact hf hS (h6 e)
  · rw [b.modDrv_other f he]
    exact h6 e

theorem Board.keeps.modPins (h : b.keeps S O L) {d : DriveNo} {f : Pins → Pins} : (b.modPins d f).keeps S O L :=
  h.modDrv fun _ hx => hx

theorem Board.keeps.modDa (h : b.keeps S O L) {d : DriveNo} {f : Arbiter → Arbiter} : (b.modDa d f).keeps S O L :=
  h.modDrv fun _ hx => hx

theorem Board.keeps.modRt (h : b.keeps S O L) {d : DriveNo} {f : Tracker → Tracker} : (b.modRt d f).keeps S O L :=
  h.modDrv fun _ hx => hx

/-- A change of LP's records with a diversion to a slot of the store. -/
theorem Board.keeps.modLpDiversion (h : b.keeps S O L) {d : DriveNo} {f : LivePath → LivePath}
    (hf : S → slotIn ((f (b.drv d).lp).diversion.map (·.slot))) : (b.modLp d f).keeps S O L :=
  h.modDrv fun hS ⟨_, h2⟩ => ⟨hf hS, h2⟩

/-- A change of LP's records that leaves the diversion. -/
theorem Board.keeps.modLp (h : b.keeps S O L) {d : DriveNo} {f : LivePath → LivePath}
    (hf : ∀ lp, (f lp).diversion = lp.diversion) : (b.modLp d f).keeps S O L :=
  h.modLpDiversion fun hS => by rw [hf]; exact (h.drvSlots d hS).1

/-- A change of LP's records that ends the diversion. -/
theorem Board.keeps.modLpEnd (h : b.keeps S O L) {d : DriveNo} {f : LivePath → LivePath}
    (hf : ∀ lp, (f lp).diversion = none) : (b.modLp d f).keeps S O L :=
  h.modLpDiversion fun _ => by rw [hf]; exact slotIn_none

/-- The slots a channel names. -/
def Channel.slotsIn (rc : Channel) : Prop := slotIn rc.buf0.who.slot ∧ slotIn rc.buf1.who.slot ∧ rc.setup.slotsIn

theorem Board.keeps.chanSlots (h : b.keeps S O L) (d : DriveNo) (hS : S) : (b.drv d).rc.slotsIn :=
  (h.drvSlots d hS).2

/-- A change of the channel with its slots in the store. -/
theorem Board.keeps.modRcSlots (h : b.keeps S O L) {d : DriveNo} {f : Channel → Channel}
    (hf : S → (b.drv d).rc.slotsIn → (f (b.drv d).rc).slotsIn) : (b.modRc d f).keeps S O L :=
  h.modDrv fun hS ⟨h1, h2⟩ => ⟨h1, hf hS h2⟩

/-- A channel with the buffers' captures and the set-up of another. -/
def Channel.sameSlots (rc rc' : Channel) : Prop :=
  rc'.buf0.who = rc.buf0.who ∧ rc'.buf1.who = rc.buf1.who ∧ rc'.setup = rc.setup

theorem Channel.sameSlots_refl (rc : Channel) : rc.sameSlots rc := ⟨rfl, rfl, rfl⟩

/-- A change of the channel that leaves its captures and its set-up. -/
theorem Board.keeps.modRc (h : b.keeps S O L) {d : DriveNo} {f : Channel → Channel}
    (hf : ∀ rc : Channel, rc.sameSlots (f rc)) : (b.modRc d f).keeps S O L :=
  h.modRcSlots fun _ hx => by
    obtain ⟨h0, h1, h2⟩ := hf (b.drv d).rc
    unfold Channel.slotsIn
    rw [h0, h1, h2]; exact hx

theorem Channel.slotsIn.buf {rc : Channel} (h : rc.slotsIn) (i : Fin 2) : slotIn (rc.buf i).who.slot := by
  fin_cases i
  · exact h.1
  · exact h.2.1

theorem Channel.slotsIn.setBuf {rc : Channel} (h : rc.slotsIn) (i : Fin 2) {x : CaptureBuffer}
    (hx : slotIn x.who.slot) : (rc.setBuf i x).slotsIn := by
  fin_cases i
  · exact ⟨hx, h.2⟩
  · exact ⟨h.1, hx, h.2.2⟩

/-! ### Keep slots, capture slots and operations -/

theorem Board.keeps.setKeep (h : b.keeps S O L) {slot : Nat} {st : KeepState} : (b.setKeep slot st).keeps S O L := by
  refine ⟨h.1, fun hO => ?_, h.2.2⟩
  obtain ⟨h1, h2, h3⟩ := h.2.1 hO
  exact ⟨h1, by simp only [Board.setKeep, putKeep_slots]; exact insertNat_ordered h2, h3⟩

theorem Store.ordered.filter {ts : Store} (h : ts.ordered) (p : Nat × KeepState → Bool) (q : Nat → Bool)
    (w : Nat → Bool) {ops : List StoreOp} :
    ({ ts with keep := ts.keep.filter p, pool := ts.pool.filter q, writeRec := ts.writeRec.filter w,
               ops := ops } : Store).ordered := by
  obtain ⟨h1, h2, h3, h4⟩ := h
  exact ⟨h1, h2.sublist (List.filter_sublist.map _), h3.sublist List.filter_sublist,
    h4.sublist List.filter_sublist⟩

theorem Board.keeps.eraseKeep (h : b.keeps S O L) {slot : Nat} : (b.eraseKeep slot).keeps S O L := by
  refine ⟨h.1, fun hO => ?_, h.2.2⟩
  obtain ⟨h1, h2, h3⟩ := h.2.1 hO
  exact ⟨h1, h2.sublist (List.filter_sublist.map _), h3⟩

theorem Board.keeps.usePool (h : b.keeps S O L) {slot : Nat} : (b.usePool slot).keeps S O L := by
  refine ⟨h.1, fun hO => ?_, h.2.2⟩
  obtain ⟨h1, h2, h3, h4⟩ := h.2.1 hO
  exact ⟨h1, h2, insertNat_ordered h3, h4⟩

theorem Board.keeps.filterPool (h : b.keeps S O L) (p : Nat → Bool) :
    ({ b with ts := { b.ts with pool := b.ts.pool.filter p } } : Board).keeps S O L := by
  refine ⟨h.1, fun hO => ?_, h.2.2⟩
  obtain ⟨h1, h2, h3, h4⟩ := h.2.1 hO
  exact ⟨h1, h2, h3.sublist List.filter_sublist, h4⟩

theorem Board.keeps.freePool (h : b.keeps S O L) {slot : Nat} : (b.freePool slot).keeps S O L := h.filterPool _

theorem Board.keeps.letGo (h : b.keeps S O L) {slot : Nat} : (b.letGo slot).keeps S O L := by
  unfold Board.letGo
  repeat' split
  · exact h.setKeep
  · exact h.setKeep
  · exact h.eraseKeep

/-- The operations changed: their slots and the cells they have still to access are in the store. -/
theorem Board.keeps.withOps (h : b.keeps S O L) {ops : List StoreOp}
    (ho : S → ∀ op ∈ ops, op.slot < Config.allSlots ∧ ∀ x ∈ op.todo, x.inStore) :
    ({ b with ts := { b.ts with ops := ops } } : Board).keeps S O L := by
  refine ⟨fun hS => ?_, h.2.1, h.2.2⟩
  obtain ⟨h1, h2, -, h4⟩ := h.1 hS
  exact ⟨Board.inStore_iff.2 ⟨h1.1, fun op hop => (ho hS op hop).2⟩, h2,
    fun op hop => slotIn_some.2 (ho hS op hop).1, h4⟩

theorem Board.keeps.opInStore (h : b.keeps S O L) {op : StoreOp} (ho : op ∈ b.ts.ops) (hS : S) :
    op.slot < Config.allSlots ∧ ∀ x ∈ op.todo, x.inStore :=
  ⟨h.opSlot ho hS, (Board.inStore_iff.1 (h.1 hS).1).2 op ho⟩

theorem Board.keeps.request (h : b.keeps S O L) {kind : OpKind} {slot : Nat} {todo : List Access}
    (hs : S → slot < Config.allSlots) (ht : slot < Config.allSlots → ∀ x ∈ todo, x.inStore) :
    (b.request kind slot todo).keeps S O L := by
  refine h.withOps fun hS op hop => ?_
  obtain hop | hop := List.mem_append.1 hop
  · exact h.opInStore hop hS
  · cases List.mem_singleton.1 hop
    exact ⟨hs hS, ht (hs hS)⟩

theorem Board.keeps.requestReads (h : b.keeps S O L) {kind : OpKind} {slot n : Nat}
    (hs : S → slot < Config.allSlots) (hn : n ≤ Config.slotCells) :
    (b.request kind slot (slotReads slot n)).keeps S O L :=
  h.request hs fun hs => slotReads_inStore hs hn

theorem Board.keeps.requestWrites (h : b.keeps S O L) {kind : OpKind} {slot : Nat} {img : List Word}
    {vals : List Nat} (hs : S → slot < Config.allSlots) :
    (b.request kind slot (slotWrites slot img vals)).keeps S O L :=
  h.request hs fun hs => slotWrites_inStore hs img vals

theorem Board.keeps.dropOps (h : b.keeps S O L) {p : StoreOp → Bool} : (b.dropOps p).keeps S O L := by
  have h1 : ({ b with ts := { b.ts with ops := b.ts.ops.filter fun op => !p op } } : Board).keeps S O L :=
    h.withOps fun hS op hop => h.opInStore (List.mem_filter.1 hop).1 hS
  refine ⟨h1.1, fun hO => ?_, h.2.2⟩
  obtain ⟨h1, h2, h3, h4⟩ := h.2.1 hO
  exact ⟨h1, h2.sublist (List.filter_sublist.map _), h3, h4.sublist List.filter_sublist⟩

theorem Board.keeps.modOpAt (h : b.keeps S O L) {n : Nat} {f : StoreOp → StoreOp}
    (hf : S → ∀ op, op.slot < Config.allSlots → (∀ x ∈ op.todo, x.inStore) →
      (f op).slot < Config.allSlots ∧ ∀ x ∈ (f op).todo, x.inStore) : (b.modOpAt n f).keeps S O L := by
  refine h.withOps fun hS op hop => ?_
  obtain ⟨i, hi, rfl⟩ := List.getElem_of_mem hop
  rw [List.getElem_modify]
  have hi' := h.opInStore (List.getElem_mem (l := b.ts.ops) (by simpa using hi)) hS
  split
  · exact hf hS _ hi'.1 hi'.2
  · exact hi'

/-! ### The keep directory -/

/-- The directory changed: its entries' slots are in the store, and its addresses in their order. -/
theorem Board.keeps.withDir (h : b.keeps S O L) {dir : List KeepEntry}
    (hs : S → ∀ e ∈ dir, e.slot < Config.allSlots) (ho : O → (dir.map (·.addr.key)).Pairwise (· < ·)) :
    ({ b with ts := { b.ts with dir := dir } } : Board).keeps S O L := by
  refine ⟨fun hS => ?_, fun hO => ⟨ho hO, (h.2.1 hO).2⟩, h.2.2⟩
  obtain ⟨h1, -, h3⟩ := h.1 hS
  exact ⟨h1, fun e he => slotIn_some.2 (hs hS e he), h3⟩

theorem Board.keeps.filterDir (h : b.keeps S O L) (p : KeepEntry → Bool) :
    ({ b with ts := { b.ts with dir := b.ts.dir.filter p } } : Board).keeps S O L :=
  h.withDir (fun hS _ he => h.dirSlot (List.mem_filter.1 he).1 hS) fun hO =>
    (h.2.1 hO).1.sublist (List.filter_sublist.map _)

theorem mem_dirInsert {e x : KeepEntry} {l : List KeepEntry} (h : x ∈ dirInsert e l) : x = e ∨ x ∈ l := by
  induction l with
  | nil => exact .inl (List.mem_singleton.1 h)
  | cons y ys ih =>
    unfold dirInsert at h
    split_ifs at h
    · exact List.mem_cons.1 h
    · exact (List.mem_cons.1 h).imp_right (List.mem_cons_of_mem _)
    · obtain rfl | h := List.mem_cons.1 h
      · exact .inr (by simp)
      · exact (ih h).imp_right (List.mem_cons_of_mem _)

theorem Board.keeps.dirInsert (h : b.keeps S O L) {e : KeepEntry} (he : S → e.slot < Config.allSlots) :
    ({ b with ts := { b.ts with dir := dirInsert e b.ts.dir } } : Board).keeps S O L := by
  refine h.withDir (fun hS x hx => ?_) fun hO => ?_
  · obtain rfl | hx := mem_dirInsert hx
    · exact he hS
    · exact h.dirSlot hx hS
  · rw [dirInsert_keys]
    exact insertNat_ordered (h.2.1 hO).1

theorem Board.keeps.modEntry (h : b.keeps S O L) {a : Addr} {f : KeepEntry → KeepEntry}
    (hf : ∀ e, (f e).addr = e.addr ∧ (f e).slot = e.slot) :
    (b.modEntry a f).keeps S O L := by
  refine h.withDir (fun hS x hx => ?_) fun hO => ?_
  · obtain ⟨e, he, rfl⟩ := List.mem_map.1 hx
    split
    · rw [(hf e).2]; exact h.dirSlot he hS
    · exact h.dirSlot he hS
  · have : (b.ts.dir.map fun e => if e.addr = a then f e else e).map (·.addr.key) =
        b.ts.dir.map (·.addr.key) := by
      rw [List.map_map]
      refine List.map_congr_left fun e _ => ?_
      simp only [Function.comp]
      split
      · rw [(hf e).1]
      · rfl
    rw [this]; exact (h.2.1 hO).1

/-! ### Jobs, suspects and the solve unit -/

/-- Jobs changed each in its place. -/
theorem Board.keeps.mapJobs (h : b.keeps S O L) {g : Job → Job} (hg : ∀ j ∈ b.re.jobs, j.keeps S L (g j)) :
    ({ b with re := { b.re with jobs := b.re.jobs.map g } } : Board).keeps S O L := by
  refine ⟨fun hS => ?_, h.2.1, fun hL => ?_⟩
  · obtain ⟨h1, h2, h3, h4, h5⟩ := h.1 hS
    refine ⟨h1, h2, h3, fun j hj => ?_, h5⟩
    obtain ⟨x, hx, rfl⟩ := List.mem_map.1 hj
    exact (hg x hx).1 hS (h4 x hx)
  · obtain ⟨h1, h2, h3, h4, h5, h6, h7, h8⟩ := h.2.2 hL
    have hn : ∀ j ∈ b.re.jobs, j.sameName (g j) := fun j hj => ((hg j hj).2 hL).1
    have field {α : Type} (p : Job → α) (hp : ∀ j ∈ b.re.jobs, p (g j) = p j) :
        (b.re.jobs.map g).map p = b.re.jobs.map p := by
      rw [List.map_map]; exact List.map_congr_left hp
    have ofKind {α : Type} (q : Job → Bool) (p : Job → α) (hq : ∀ j ∈ b.re.jobs, q (g j) = q j)
        (hp : ∀ j ∈ b.re.jobs, p (g j) = p j) :
        ((b.re.jobs.map g).filter q).map p = (b.re.jobs.filter q).map p := by
      rw [List.filter_map, List.map_map]
      have : b.re.jobs.filter (q ∘ g) = b.re.jobs.filter q := List.filter_congr fun j hj => hq j hj
      rw [this]
      exact List.map_congr_left fun j hj => hp j (List.mem_filter.1 hj).1
    refine ⟨?_, ?_, fun j hj => ?_, ?_, ?_, fun j hj => ?_, h7, fun x hx j hj => ?_⟩
    · rwa [field (·.id) fun j hj => (hn j hj).1]
    · rwa [field (·.serial) fun j hj => (hn j hj).2.1]
    · obtain ⟨x, hx, rfl⟩ := List.mem_map.1 hj
      rw [(hn x hx).2.1]; exact h3 x hx
    · rw [ofKind]
      · exact h4
      · intro j hj; rw [(hn j hj).2.2.1]
      · intro j hj
        obtain ⟨-, -, -, hd, hc, hh⟩ := hn j hj
        simp only [Job.track, hd, hc, hh]
    · rw [ofKind]
      · exact h5
      · intro j hj; rw [(hn j hj).2.2.1]
      · intro j hj; exact (hn j hj).2.2.2.1
    · obtain ⟨x, hx, rfl⟩ := List.mem_map.1 hj
      exact ((hg x hx).2 hL).2 (h6 x hx)
    · obtain ⟨y, hy, rfl⟩ := List.mem_map.1 hj
      rw [(hn y hy).onTrack]; exact h8 x hx y hy

theorem Board.keeps.modJobAt (h : b.keeps S O L) {n : Nat} {f : Job → Job}
    (hf : ∀ j ∈ b.re.jobs, j.serial = n → j.keeps S L (f j)) : (b.modJob n f).keeps S O L :=
  h.mapJobs fun j hj => by
    split
    · exact hf j hj ‹_›
    · exact Job.keeps_of_same (Job.sameName.refl j) rfl rfl

theorem Job.same_rfl (j : Job) : j.sameName j ∧ j.sectors = j.sectors ∧ j.relay = j.relay :=
  ⟨Job.sameName.refl j, rfl, rfl⟩

/-- A change of a job that leaves its name and its sector records. -/
theorem Board.keeps.modJob (h : b.keeps S O L) {n : Nat} {f : Job → Job}
    (hf : ∀ j, j.sameName (f j) ∧ (f j).sectors = j.sectors ∧ (f j).relay = j.relay) : (b.modJob n f).keeps S O L :=
  h.modJobAt fun j _ _ => Job.keeps_of_same (hf j).1 (hf j).2.1 (hf j).2.2

/-- A sector record of a job changed, no slot of it new. -/
theorem Board.keeps.modSector (h : b.keeps S O L) {n k : Nat} {g : SalvageSector → SalvageSector}
    (hg : ∀ r : SalvageSector, r.shrinks (g r)) : (b.modJob n fun j => j.modSector k g).keeps S O L :=
  h.modJobAt fun _ _ _ => Job.modSector_shrinks hg

/-- A RELAY sector record of a job changed, its slots in the store. -/
theorem Board.keeps.modRelay (h : b.keeps S O L) {n k : Nat} {g : RelaySector → RelaySector}
    (hg : S → ∀ r, r.slotsIn → (g r).slotsIn) :
    (b.modJob n fun j => j.modRelay k g).keeps S O L :=
  h.modJobAt fun _ _ _ => Job.modRelay_keeps hg

/-- A job of the table put back with other counters. -/
theorem Board.keeps.putJob (h : b.keeps S O L) {n : Nat} {j : Job} (hj : b.knows S L j) (hn : j.serial = n) :
    (b.modJob n fun _ => j).keeps S O L :=
  h.modJobAt fun x hx e => ⟨fun hS _ => hj.1 hS, fun hL => ⟨(hj.2 hL).2 x hx (e.trans hn.symm), fun _ => (hj.2 hL).1⟩⟩

/-- Jobs taken off the table. -/
theorem Board.keeps.filterJobs (h : b.keeps S O L) (p : Job → Bool) :
    ({ b with re := { b.re with jobs := b.re.jobs.filter p } } : Board).keeps S O L := by
  refine ⟨fun hS => ?_, h.2.1, fun hL => ?_⟩
  · obtain ⟨h1, h2, h3, h4, h5⟩ := h.1 hS
    exact ⟨h1, h2, h3, fun j hj => h4 j (List.mem_filter.1 hj).1, h5⟩
  · obtain ⟨h1, h2, h3, h4, h5, h6, h7, h8⟩ := h.2.2 hL
    have sub : (b.re.jobs.filter p).Sublist b.re.jobs := List.filter_sublist
    exact ⟨h1.sublist (sub.map _), h2.sublist (sub.map _), fun j hj => h3 j (sub.subset hj),
      h4.sublist ((sub.filter _).map _), h5.sublist ((sub.filter _).map _), fun j hj => h6 j (sub.subset hj), h7,
      fun x hx j hj => h8 x hx j (sub.subset hj)⟩

/-- Suspect entries taken off their list. -/
theorem Board.keeps.filterSuspects (h : b.keeps S O L) (p : Suspect → Bool) :
    ({ b with re := { b.re with suspects := b.re.suspects.filter p } } : Board).keeps S O L := by
  refine ⟨h.1, h.2.1, fun hL => ?_⟩
  obtain ⟨h1, h2, h3, h4, h5, h6, h7, h8⟩ := h.2.2 hL
  exact ⟨h1, h2, h3, h4, h5, h6, h7.sublist (List.filter_sublist.map _), fun x hx => h8 x (List.mem_filter.1 hx).1⟩

/-- The solve unit changed, its snapshot's slots in the store. -/
theorem Board.keeps.withSu (h : b.keeps S O L) {su : Solver}
    (hf : S → ∀ f, su.flight = some f → ∀ m ∈ f.snapshot, slotIn (some m.slot)) :
    ({ b with su := su } : Board).keeps S O L := by
  refine ⟨fun hS => ?_, h.2⟩
  obtain ⟨h1, h2, h3, h4, -, h6⟩ := h.1 hS
  exact ⟨h1, h2, h3, h4, hf hS, h6⟩

/-- The solve unit changed, its snapshot the one in flight or none. -/
theorem Board.keeps.withFlight (h : b.keeps S O L) {su : Solver} {f : Flight} (hf : b.su.flight = some f)
    (hs : ∀ g, su.flight = some g → g.snapshot = f.snapshot) : ({ b with su := su } : Board).keeps S O L :=
  h.withSu fun hS g hg => by rw [hs g hg]; exact h.flightSlots hf hS

theorem Board.keeps.unqueueJob (h : b.keeps S O L) {n : Nat} : (b.unqueueJob n).keeps S O L := h

end

end Sys2Proof.Machine
end

section
/-! PROOFS. The shared operations of the board keep the tables' invariants: buffers, entries, reports, finishes, filings
and the examination. -/

namespace Sys2Proof.Machine

section
variable {b : Board} {S O L : Prop}

/-! ### Emit buffers and captures set aside -/

theorem Board.keeps.abandonFill (h : b.keeps S O L) {d : DriveNo} : (b.abandonFill d).keeps S O L := h.dropOps

theorem Board.keeps.startFill (h : b.keeps S O L) {d : DriveNo} {a : Addr} {slot : Nat}
    (hs : S → slot < Config.allSlots) : (b.startFill d a slot).keeps S O L :=
  (h.abandonFill.modLp fun _ => by rfl).requestReads hs (by decide)

theorem Board.keeps.voidBuffer (h : b.keeps S O L) {d : DriveNo} : (b.voidBuffer d).keeps S O L :=
  (h.abandonFill.modLp fun _ => by rfl)

/-- Of lawful jobs with one serial and their records of one sector there is one. -/
theorem Board.keeps.sectorRec_eq (h : b.keeps S O L) (hL : L) {n k : Nat} {j j' : Job} {r r' : SalvageSector}
    (hj : b.job n = some j) (hr : j.sectorRec k = some r) (hj' : j' ∈ b.re.jobs) (hn : j'.serial = n)
    (hr' : r' ∈ j'.sectors) (hk : r'.sector = k) : r' = r := by
  obtain ⟨hm, hs⟩ := Board.job_mem hj
  rw [(h.2.2 hL).serial_inj hj' hm (hn.trans hs.symm)] at hr'
  have hrm : r ∈ j.sectors := List.mem_of_find?_eq_some hr
  have hrk : r.sector = k := by simpa using List.find?_some hr
  exact List.inj_on_of_nodup_map ((h.2.2 hL).2.2.2.2.2.1 j hm).1 hr' hrm (hk.trans hrk.symm)

/-- The record of a sector of a job changed to one with slots in the store and a set of at most 8 captures. -/
theorem Board.keeps.modSectorAt (h : b.keeps S O L) {n k : Nat} {j : Job} {r : SalvageSector}
    {g : SalvageSector → SalvageSector} (hj : b.job n = some j) (hr : j.sectorRec k = some r)
    (hk : ∀ r, (g r).sector = r.sector) (hs : S → ∀ r, r.slotsIn → (g r).slotsIn)
    (hc : L → r.caps.length ≤ 8 → (g r).caps.length ≤ 8) : (b.modJob n fun j => j.modSector k g).keeps S O L :=
  h.modJobAt fun j' hj' hn => Job.modSector_keeps hk fun r' hr' hk' =>
    ⟨fun hS => hs hS r', fun hL => by rw [h.sectorRec_eq hL hj hr hj' hn hr' hk']; exact hc hL⟩

theorem Board.keeps.sectorSlots (h : b.keeps S O L) {n k : Nat} {j : Job} {r : SalvageSector}
    (hj : b.job n = some j) (hr : j.sectorRec k = some r) (hS : S) : r.slotsIn :=
  (h.jobSlots (Board.job_mem hj).1 hS).1 r (List.mem_of_find?_eq_some hr)

/-- A pending entry put at the end of a set of fewer than 8, or in the place of another. -/
theorem SalvageSector.slotsIn.setCaps {r : SalvageSector} (hr : r.slotsIn) {caps : List Capture}
    (hc : ∀ c ∈ caps, c ∈ r.caps ∨ c.slot < Config.allSlots) : ({ r with caps := caps } : SalvageSector).slotsIn :=
  ⟨hr.1, fun c hm => (hc c hm).elim (hr.2 c) slotIn_some.2⟩

/-- A capture set aside: the table's invariants, and the slot's place in the store. -/
theorem Board.keeps.setAside (h : b.keeps S O L) (n k : Nat) :
    (b.setAside n k).1.keeps S O L ∧ slotIn (b.setAside n k).2 := by
  unfold Board.setAside
  split
  · rename_i r slot hr hslot
    have hs := Store.freePoolSlot_lt hslot
    split
    · rename_i h8
      obtain ⟨j, hj, hr⟩ := Option.bind_eq_some_iff.1 hr
      refine ⟨(h.usePool).modSectorAt (j := j) (r := r) hj hr (fun _ => rfl) (fun _ r hr => ?_) fun _ _ => ?_,
        slotIn_some.2 hs⟩
      · refine hr.setCaps fun c hc => (List.mem_append.1 hc).imp_right fun hc => ?_
        cases List.mem_singleton.1 hc
        exact hs
      · simpa using h8
    · exact ⟨h, slotIn_none⟩
  · exact ⟨h, slotIn_none⟩

/-- Captures taken out of a set. -/
theorem SalvageSector.shrinks_filter (r : SalvageSector) (p : Capture → Bool) :
    r.shrinks { r with caps := r.caps.filter p } := ⟨rfl, .inl rfl, List.filter_sublist.map _⟩

/-- Captures changed in their slots. -/
theorem SalvageSector.shrinks_map (r : SalvageSector) {g : Capture → Capture}
    (hg : ∀ c, (g c).slot = c.slot) :
    r.shrinks { r with caps := r.caps.map g } := by
  refine ⟨rfl, .inl rfl, ?_⟩
  have : (r.caps.map g).map (·.slot) = r.caps.map (·.slot) := by
    rw [List.map_map]; exact List.map_congr_left fun c _ => hg c
  rw [this]

theorem RelaySector.slotsIn.dropAside {r : RelaySector} (hr : r.slotsIn) :
    ({ r with aside := none } : RelaySector).slotsIn := ⟨slotIn_none, hr.2⟩

theorem Board.keeps.dropAside (h : b.keeps S O L) {c : CaptureFor} : (b.dropAside c).keeps S O L := by
  unfold Board.dropAside
  repeat' split
  · exact (h.modRelay fun _ r hr => hr.dropAside).freePool
  · exact h
  · exact (h.modSector fun r => r.shrinks_filter _).freePool
  · exact h
  · exact h

/-- The set-up of a relayed READ, with the slot set aside for it. -/
theorem Board.keeps.makeRelay (h : b.keeps S O L) {d : DriveNo} : (b.makeRelay d).keeps S O L := by
  have set (c : Board) (cap : Option CaptureFor) (hc : c.keeps S O L) (hcap : slotIn (cap.bind (·.slot)))
      (x : LiveSetup) (hx : x.capture = cap) :
      ((c.modLp d fun lp => { lp with cmd := { lp.cmd with course := .relay } }).modRc d fun rc =>
        { rc with shift := 0, setup := .live x }).keeps S O L :=
    (hc.modLp fun _ => by rfl).modRcSlots fun _ ⟨h0, h1, _⟩ => ⟨h0, h1, show slotIn _ from hx ▸ hcap⟩
  unfold Board.makeRelay
  dsimp only
  split
  · exact set _ none h slotIn_none _ rfl
  · obtain ⟨h1, h2⟩ := h.setAside _ _
    exact set _ (some ⟨_, _, _⟩) h1 h2 _ rfl

/-! ### Keep entries -/

theorem Board.keeps.askAgain (h : b.keeps S O L) {d : DriveNo} : (b.askAgain d).keeps S O L := by
  unfold Board.askAgain
  dsimp only
  split
  · rename_i he
    split
    · exact h.startFill (h.entrySlot he)
    · exact h.voidBuffer.makeRelay
  · exact h.voidBuffer.makeRelay

theorem Board.keeps.entryChanged (h : b.keeps S O L) {a : Addr} : (b.entryChanged a).keeps S O L := by
  unfold Board.entryChanged
  dsimp only
  repeat' split
  · exact h
  · exact h.modLp fun _ => by rfl
  · exact h.askAgain
  · exact h.voidBuffer

theorem Board.keeps.createEntry (h : b.keeps S O L) {a : Addr} {slot : Nat} {kind : KeepKind}
    (hs : S → slot < Config.allSlots) : (b.createEntry a slot kind).keeps S O L := by
  have h1 (e : KeepEntry) (he : e.slot = slot) := (h.dirInsert (e := e) fun hS => he ▸ hs hS).setKeep (slot := slot)
    (st := .entry)
  unfold Board.createEntry
  dsimp only
  repeat' split
  · exact (h1 _ rfl).entryChanged
  · exact (h1 _ rfl).letGo.entryChanged
  · exact (h1 _ rfl).entryChanged

theorem Board.keeps.damageEntry (h : b.keeps S O L) {a : Addr} : (b.damageEntry a).keeps S O L := by
  unfold Board.damageEntry
  repeat' split
  · exact h
  · exact (h.modEntry fun _ => by exact ⟨rfl, rfl⟩).entryChanged
  · exact h

theorem Board.keeps.placeEntry (h : b.keeps S O L) {a : Addr} : (b.placeEntry a).keeps S O L :=
  (h.modEntry fun _ => by exact ⟨rfl, rfl⟩).entryChanged

theorem Board.keeps.releaseEntry (h : b.keeps S O L) {a : Addr} : (b.releaseEntry a).keeps S O L := by
  unfold Board.releaseEntry
  split
  · exact ((h.filterDir _).exam true).letGo.entryChanged
  · exact h

/-! ### Suspect reports (R102) -/

/-- A sector added to a job that does not name it. -/
theorem Board.keeps.addSector (h : b.keeps S O L) {n k : Nat} {j : Job} {status : SectorStatus} {slot : Nat}
    (hj : b.job n = some j) (hk : j.sectorRec k = none) (hs : slot < Config.allSlots) :
    (b.modJob n fun j => { j with sectors := j.sectors ++ [SalvageSector.fresh k status (some slot)] }).keeps
      S O L := by
  refine h.modJobAt fun x hx hn => ⟨fun _ hxs => ⟨fun r hr => ?_, hxs.2⟩, fun hL => ⟨Job.sameName.refl x, ?_⟩⟩
  · obtain hr | hr := List.mem_append.1 hr
    · exact hxs.1 r hr
    · cases List.mem_singleton.1 hr
      exact ⟨slotIn_some.2 hs, fun c hc => by cases hc⟩
  · obtain ⟨hm, hs⟩ := Board.job_mem hj
    rw [(h.2.2 hL).serial_inj hx hm (hn.trans hs.symm)]
    rintro ⟨h1, h2⟩
    refine ⟨?_, fun r hr => ?_⟩
    · have hk' : k ∉ j.sectors.map (·.sector) := by
        intro hc
        obtain ⟨r, hr, e⟩ := List.mem_map.1 hc
        have := List.find?_eq_none.1 hk r hr
        simp [e] at this
      simp only [List.map_append, List.map_cons, List.map_nil, SalvageSector.fresh]
      exact List.nodup_append.2 ⟨h1, List.nodup_singleton _, by
        rintro a ha b hb rfl
        exact hk' (List.mem_singleton.1 hb ▸ ha)⟩
    · obtain hr | hr := List.mem_append.1 hr
      · exact h2 r hr
      · cases List.mem_singleton.1 hr
        exact Nat.zero_le _

theorem Board.keeps.foldSector (h : b.keeps S O L) {n k : Nat} {t : Track} :
    (b.foldSector n t k).keeps S O L := by
  unfold Board.foldSector
  split
  · rename_i j slot hj hslot
    split
    · exact h
    · rename_i hc
      have hk : j.sectorRec k = none := by
        cases hr : j.sectorRec k with
        | none => rfl
        | some r => simp [hr] at hc
      exact h.setKeep.addSector (j := j) hj hk (Store.freeKeepSlot_lt hslot)
  · exact h

/-- No job on a track: an entry for it may join the suspect list. -/
theorem Board.trackJob_none {t : Track} (ht : b.trackJob t = none) : ∀ j ∈ b.re.jobs, j.onTrack t = false := by
  intro j hj
  simpa using List.find?_eq_none.1 ht j hj

theorem Board.keeps.addSuspect (h : b.keeps S O L) {x : Suspect} (ht : b.trackJob x.track = none)
    (hn : b.re.suspects.any (·.track = x.track) = false) :
    ({ b with re := { b.re with suspects := b.re.suspects ++ [x] } } : Board).keeps S O L := by
  refine ⟨h.1, h.2.1, fun hL => ?_⟩
  obtain ⟨h1, h2, h3, h4, h5, h6, h7, h8⟩ := h.2.2 hL
  refine ⟨h1, h2, h3, h4, h5, h6, ?_, fun y hy => ?_⟩
  · simp only [List.map_append, List.map_cons, List.map_nil]
    refine List.nodup_append.2 ⟨h7, List.nodup_singleton _, ?_⟩
    rintro a ha c hc rfl
    obtain ⟨y, hy, e⟩ := List.mem_map.1 ha
    have hf := List.any_eq_false.1 hn y hy
    exact hf (by simpa [List.mem_singleton.1 hc] using e)
  · obtain hy | hy := List.mem_append.1 hy
    · exact h8 y hy
    · cases List.mem_singleton.1 hy
      exact Board.trackJob_none ht

/-- Suspect entries changed in their places. -/
theorem Board.keeps.mapSuspects (h : b.keeps S O L) {g : Suspect → Suspect} (hg : ∀ x, (g x).track = x.track) :
    ({ b with re := { b.re with suspects := b.re.suspects.map g } } : Board).keeps S O L := by
  refine ⟨h.1, h.2.1, fun hL => ?_⟩
  obtain ⟨h1, h2, h3, h4, h5, h6, h7, h8⟩ := h.2.2 hL
  refine ⟨h1, h2, h3, h4, h5, h6, ?_, fun x hx => ?_⟩
  · have : (b.re.suspects.map g).map (·.track) = b.re.suspects.map (·.track) := by
      rw [List.map_map]; exact List.map_congr_left fun x _ => hg x
    simpa only [this] using h7
  · obtain ⟨y, hy, rfl⟩ := List.mem_map.1 hx
    rw [hg]; exact h8 y hy

theorem Board.keeps.addReport (h : b.keeps S O L) {t : Track} {mask : SectorSet} {src : Source} :
    (b.addReport t mask src).keeps S O L := by
  unfold Board.addReport
  split
  · split
    · exact h.foldl _ fun _ _ _ hc => hc.foldSector
    · exact h
  · rename_i ht
    split
    · exact h.mapSuspects fun x => by split <;> rfl
    · rename_i hn
      dsimp only
      split
      · exact ((h.addSuspect (x := ⟨t, mask, 1, b.now, b.now, src⟩) ht (by simpa using hn)).exam true).note
      · exact h.note

/-! ### The solve unit's marks (R114, R123) -/

theorem Board.keeps.solveOver (h : b.keeps S O L) (x : Bool) : ({ b with solveOver := x } : Board).keeps S O L := h

theorem Board.keeps.endSolve (h : b.keeps S O L) : b.endSolve.keeps S O L := by
  unfold Board.endSolve
  split
  · exact h
  · extract_lets b1
    have h1 : b1.keeps S O L := h.dropOps.modSector fun r => r.shrinks_map fun _ => by rfl
    exact (h1.withSu (su := { b1.su with flight := none }) fun _ f hf => by cases hf).solveOver true

theorem Board.keeps.discardSolve (h : b.keeps S O L) {n : Nat} : (b.discardSolve n).keeps S O L := by
  unfold Board.discardSolve
  split
  · rename_i f hf
    repeat' split
    · exact h.endSolve
    · exact h.withFlight hf (by rintro g ⟨⟩; rfl)
    · exact h
  · exact h

theorem Board.keeps.supersedeSolve (h : b.keeps S O L) {n k : Nat} : (b.supersedeSolve n k).keeps S O L := by
  unfold Board.supersedeSolve
  have h1 : ({ b with su := { b.su with queue := b.su.queue.filter (· ≠ (n, k)) } } : Board).keeps S O L := h
  dsimp only
  split
  · rename_i f hf
    repeat' split
    · exact h1.endSolve
    · exact h.withFlight hf (by rintro g ⟨⟩; rfl)
    · exact h1
  · exact h1

theorem Board.keeps.joinQueue (h : b.keeps S O L) {n k : Nat} : (b.joinQueue n k).keeps S O L := by
  unfold Board.joinQueue
  split
  · rename_i f hf
    repeat' split
    · exact h.withFlight hf (by rintro g ⟨⟩; rfl)
    · exact h
    · exact h
  · split
    · exact h
    · exact h

/-! ### Results and finishes (R108, R111, R112, R126) -/

theorem Board.keeps.enterResult (h : b.keeps S O L) {a : Addr} {slot : Nat} {r : Rating} {t : Time} {newly : Bool}
    (hs : S → slot < Config.allSlots) : (b.enterResult a slot r t newly).1.keeps S O L := by
  unfold Board.enterResult
  repeat' split
  · exact h.createEntry hs
  · exact h.createEntry hs
  · exact h.letGo

theorem Board.keeps.enterBests (h : b.keeps S O L) {j : Job} (hj : S → j.slotsIn) :
    (b.enterBests j).keeps S O L := by
  unfold Board.enterBests
  refine h.foldl _ fun c r hr hc => ?_
  split
  · rename_i slot _ hslot
    split
    · exact hc
    · refine (hc.enterResult fun hS => ?_).modSector fun r => ⟨rfl, .inr rfl, List.Sublist.refl _⟩
      exact ((hj hS).1 r hr).1 slot hslot
  · exact hc

theorem Board.keeps.startCopy (h : b.keeps S O L) {j : Job} {r : RelaySector} {c : Capture}
    (hs : S → c.slot < Config.allSlots) : (b.startCopy j r c).keeps S O L := by
  unfold Board.startCopy
  dsimp only
  split
  · exact h
  · rename_i slot hslot
    have hk : S → slot < Config.allSlots := fun _ => Store.freeKeepSlot_lt hslot
    refine (h.setKeep.createEntry hk).withOps fun hS op hop => ?_
    obtain hop | hop := List.mem_append.1 hop
    · exact (h.setKeep.createEntry hk).opInStore hop hS
    · cases List.mem_singleton.1 hop
      exact ⟨hk hS, slotReads_inStore (hs hS) (by decide)⟩

theorem Board.keeps.relayEntries (h : b.keeps S O L) {j : Job} (hj : S → j.slotsIn) :
    (b.relayEntries j).keeps S O L := by
  unfold Board.relayEntries
  dsimp only
  refine Board.keeps.filterSuspects ?_ _
  split
  · refine (h.foldl _ fun c e _ hc => hc.placeEntry).foldl _ fun c r hr hc => ?_
    split
    · rename_i cap himg
      split
      · refine hc.startCopy fun hS => ?_
        have := ((hj hS).2 r hr).2
        rw [himg] at this
        exact slotIn_some.1 this
      · exact hc
    · exact hc
  · exact h.foldl _ fun c e _ hc => hc.releaseEntry

theorem Board.keeps.freeCaptures (h : b.keeps S O L) {j : Job} : (b.freeCaptures j).keeps S O L := h.filterPool _

theorem Board.keeps.freeReservations (h : b.keeps S O L) {j : Job} : (b.freeReservations j).keeps S O L := by
  unfold Board.freeReservations
  refine h.foldl _ fun c r _ hc => ?_
  split
  · exact hc.letGo
  · exact hc

theorem Board.keeps.askEnd (h : b.keeps S O L) {d : DriveNo} {n : Nat} : (b.askEnd d n).keeps S O L := by
  unfold Board.askEnd
  dsimp only
  repeat' split
  · exact h.modDa
  · exact h.modDa
  · exact h
  · exact h

theorem Board.keeps.finishCore (h : b.keeps S O L) {n : Nat} {o : Outcome} : (b.finishCore n o).keeps S O L := by
  unfold Board.finishCore
  split
  · exact h
  · rename_i j hj
    extract_lets b1 b2 b3 j' b4 src b5
    have hs : S → j.slotsIn := h.jobSlots (Board.job_mem hj).1
    have h1 : b1.keeps S O L := by
      simp only [b1]
      split
      · exact h.enterBests hs
      · exact h.enterBests hs
      · exact h.enterBests hs
      · exact h.relayEntries hs
      · exact h
    have h4 : b4.keeps S O L := h1.note.askEnd.unqueueJob.discardSolve.freeCaptures.freeReservations
    have h5 : b5.keeps S O L := (h4.filterJobs _).exam true
    split
    · exact h5.addReport
    · exact h5

/-! ### Filing (R91, R92) -/

theorem Board.keeps.reserveSectors (h : b.keeps S O L) {t : Track} (ks : List Nat) :
    (b.reserveSectors t ks).1.keeps S O L := by
  induction ks generalizing b with
  | nil => exact h
  | cons k ks ih =>
    unfold Board.reserveSectors
    dsimp only
    split
    · exact ih h
    · split
      · exact ih h.setKeep
      · exact ih h

/-- The records of the sectors filed: one for each, with no capture, and with a slot of the store or none. -/
theorem Board.reserveSectors_records (b : Board) (t : Track) (ks : List Nat) :
    (b.reserveSectors t ks).2.map (·.sector) = ks ∧
      ∀ r ∈ (b.reserveSectors t ks).2, r.caps = [] ∧ slotIn r.slot := by
  induction ks generalizing b with
  | nil => exact ⟨rfl, fun r hr => by cases hr⟩
  | cons k ks ih =>
    unfold Board.reserveSectors
    dsimp only
    have cons (c : Board) (st : SectorStatus) (slot : Option Nat) (hs : slotIn slot) :
        (SalvageSector.fresh k st slot :: (c.reserveSectors t ks).2).map (·.sector) = k :: ks ∧
          ∀ r ∈ SalvageSector.fresh k st slot :: (c.reserveSectors t ks).2, r.caps = [] ∧ slotIn r.slot := by
      refine ⟨by rw [List.map_cons, (ih c).1]; rfl, fun r hr => ?_⟩
      obtain rfl | hr := List.mem_cons.1 hr
      · exact ⟨rfl, hs⟩
      · exact (ih c).2 r hr
    repeat' split
    · exact cons _ _ _ slotIn_none
    · rename_i hslot
      exact cons _ _ _ (slotIn_some.2 (Store.freeKeepSlot_lt hslot))
    · exact cons _ _ _ slotIn_none

/-- The id that follows one in the order 1 to 255. -/
def nextId (n : Nat) : Nat := if 255 ≤ n then 1 else n + 1

theorem nextJobId_eq (live : List Nat) (fuel n : Nat) :
    nextJobId live (fuel + 1) n = if live.contains (nextId n) then nextJobId live fuel (nextId n) else nextId n := rfl

/-- The search comes to a free id, or has passed over as many live ids as it has made steps. -/
theorem nextJobId_free (live : List Nat) (fuel n : Nat) :
    nextJobId live fuel n ∉ live ∨ ∀ i, i < fuel → nextId^[i + 1] n ∈ live := by
  induction fuel generalizing n with
  | zero => exact .inr fun i hi => absurd hi (Nat.not_lt_zero i)
  | succ fuel ih =>
    rw [nextJobId_eq]
    split
    · rename_i hc
      refine (ih (nextId n)).imp_right fun hall i hi => ?_
      cases i with
      | zero => simpa using hc
      | succ i => exact hall i (by omega)
    · rename_i hc
      exact .inl (by simpa using hc)

/-- Each id from 1 to 255 follows any number within 255 steps. -/
theorem nextId_reaches (n m : Nat) (hm : 1 ≤ m ∧ m ≤ 255) : ∃ i, i < 255 ∧ nextId^[i + 1] n = m := by
  have up (k a : Nat) (h : a + k ≤ 255) : nextId^[k] a = a + k := by
    induction k with
    | zero => rfl
    | succ k ih =>
      rw [Function.iterate_succ_apply', ih (by omega)]
      unfold nextId
      split <;> omega
  have one (a : Nat) (h : 255 ≤ a) : nextId a = 1 := if_pos h
  by_cases hn : 255 ≤ n
  · refine ⟨m - 1, by omega, ?_⟩
    rw [Function.iterate_succ_apply, one n hn, up _ _ (by omega)]
    omega
  · by_cases hnm : n < m
    · refine ⟨m - n - 1, by omega, ?_⟩
      rw [show m - n - 1 + 1 = m - n by omega, up _ _ (by omega)]
      omega
    · refine ⟨(m - 1) + (255 - n), by omega, ?_⟩
      rw [show m - 1 + (255 - n) + 1 = (m - 1) + 1 + (255 - n) by omega, Function.iterate_add_apply,
        up (255 - n) n (by omega), show n + (255 - n) = 255 by omega, Function.iterate_succ_apply, one 255 le_rfl,
        up _ _ (by omega)]
      omega

/-- With fewer than 255 jobs live the id given is no live job's (R90). -/
theorem nextJobId_not_mem {live : List Nat} (h : live.length < 255) (n : Nat) : nextJobId live 255 n ∉ live := by
  refine (nextJobId_free live 255 n).resolve_right fun hall => ?_
  have hsub : List.range' 1 255 ⊆ live := by
    intro m hm
    obtain ⟨h1, h2⟩ := List.mem_range'_1.1 hm
    obtain ⟨i, hi, e⟩ := nextId_reaches n m ⟨h1, by omega⟩
    exact e ▸ hall i hi
  have := (List.nodup_range' (s := 1) (n := 255)).subperm hsub |>.length_le
  simp at this
  omega

/-- A job put at the end of the table: its id and serial new, no other of its kind on its track or drive, its sets
lawful, its track's suspect entry gone. -/
theorem Board.keeps.addJob (h : b.keeps S O L) {j : Job} {id : Nat} {sus : List Suspect} (hs : S → j.slotsIn)
    (hset : j.setsLawful) (hid : j.id ∉ b.re.jobs.map (·.id)) (hser : j.serial = b.re.nextSerial)
    (ht : j.kind ≠ .survey → b.trackJob j.track = none)
    (hv : j.kind = .survey → ∀ x ∈ b.re.jobs, x.kind = .survey → x.drive ≠ j.drive)
    (hsus : sus = if j.kind = .survey then b.re.suspects else b.re.suspects.filter (·.track ≠ j.track)) :
    ({ b with re := { b.re with jobs := b.re.jobs ++ [j], lastId := id, nextSerial := b.re.nextSerial + 1,
                                suspects := sus } } : Board).keeps S O L := by
  refine ⟨fun hS => ?_, h.2.1, fun hL => ?_⟩
  · obtain ⟨h1, h2, h3, h4, h5⟩ := h.1 hS
    refine ⟨h1, h2, h3, fun x hx => ?_, h5⟩
    obtain hx | hx := List.mem_append.1 hx
    · exact h4 x hx
    · cases List.mem_singleton.1 hx; exact hs hS
  · obtain ⟨h1, h2, h3, h4, h5, h6, h7, h8⟩ := h.2.2 hL
    have snoc {α : Type} (l : List α) (a : α) (hl : l.Nodup) (ha : a ∉ l) : (l ++ [a]).Nodup :=
      List.nodup_append.2 ⟨hl, List.nodup_singleton _, by rintro x hx y hy rfl; exact ha (List.mem_singleton.1 hy ▸ hx)⟩
    have hsub : sus.Sublist b.re.suspects := by
      rw [hsus]; split
      · exact List.Sublist.refl _
      · exact List.filter_sublist
    refine ⟨?_, ?_, fun x hx => ?_, ?_, ?_, fun x hx => ?_, h7.sublist (hsub.map _), fun y hy x hx => ?_⟩
    · rw [List.map_append]; exact snoc _ _ h1 hid
    · rw [List.map_append]
      refine snoc _ _ h2 fun hm => ?_
      obtain ⟨x, hx, e⟩ := List.mem_map.1 hm
      exact absurd (h3 x hx) (by simp only at e; omega)
    · obtain hx | hx := List.mem_append.1 hx
      · exact Nat.lt_succ_of_lt (h3 x hx)
      · cases List.mem_singleton.1 hx
        show j.serial < b.re.nextSerial + 1
        omega
    · rw [List.filter_append, List.map_append, List.filter_singleton]
      by_cases hk : j.kind = .survey
      · simpa [hk] using h4
      · simp only [hk, ne_eq, not_false_eq_true, decide_true, cond_true, List.map_cons, List.map_nil]
        refine snoc _ _ h4 fun hm => ?_
        obtain ⟨x, hx, e⟩ := List.mem_map.1 hm
        obtain ⟨hxm, hxk⟩ := List.mem_filter.1 hx
        have := Board.trackJob_none (ht hk) x hxm
        simp only [Job.onTrack, e, Bool.and_eq_false_iff, decide_eq_false_iff_not, not_true] at this
        simp only [decide_eq_true_eq] at hxk
        simp [hxk] at this
    · rw [List.filter_append, List.map_append, List.filter_singleton]
      by_cases hk : j.kind = .survey
      · simp only [hk, decide_true, cond_true, List.map_cons, List.map_nil]
        refine snoc _ _ h5 fun hm => ?_
        obtain ⟨x, hx, e⟩ := List.mem_map.1 hm
        obtain ⟨hxm, hxk⟩ := List.mem_filter.1 hx
        exact hv hk x hxm (by simpa using hxk) e
      · simpa [hk] using h5
    · obtain hx | hx := List.mem_append.1 hx
      · exact h6 x hx
      · cases List.mem_singleton.1 hx; exact hset
    · obtain hx | hx := List.mem_append.1 hx
      · exact h8 y (hsub.subset hy) x hx
      · cases List.mem_singleton.1 hx
        by_cases hk : j.kind = .survey
        · simp [Job.onTrack, hk]
        · rw [hsus, if_neg hk] at hy
          have hy2 := (List.mem_filter.1 hy).2
          have : j.track ≠ y.track := fun e => by simp [e] at hy2
          simp [Job.onTrack, this]

theorem Board.prepareCheck_same (b : Board) (j : Job) :
    j.sameName (b.prepareCheck j) ∧ (b.prepareCheck j).sectors = j.sectors ∧
      (b.prepareCheck j).relay = j.relay := by
  unfold Board.prepareCheck
  repeat' split
  all_goals exact ⟨Job.sameName.refl j, rfl, rfl⟩

/-- What a filing that passes its checks finds on the board (R91). -/
theorem Board.fileCheck_free {r : FileReq} (h : b.fileCheck r = none) :
    (r.kind ≠ .survey → b.trackJob r.track = none) ∧
      (r.kind = .survey → ∀ x ∈ b.re.jobs, x.kind = .survey → x.drive ≠ r.drive) := by
  unfold Board.fileCheck at h
  have free (hn : ∀ j, b.trackJob r.track = some j → False) : b.trackJob r.track = none := by
    cases ht : b.trackJob r.track with
    | none => rfl
    | some j => exact (hn j ht).elim
  cases hk : r.kind <;> simp only [hk] at h
  case salvage => exact ⟨fun _ => free fun j ht => by simp [ht] at h; split_ifs at h, fun he => by cases he⟩
  case relay => exact ⟨fun _ => free fun j ht => by simp [ht] at h; split_ifs at h, fun he => by cases he⟩
  case survey =>
    refine ⟨fun hne => absurd rfl hne, fun _ x hx hs hd => ?_⟩
    have hany : (b.re.jobs.any fun j => j.kind = .survey && j.drive = r.drive) = true :=
      List.any_eq_true.2 ⟨x, hx, by simp [hs, hd]⟩
    simp only [hany, if_true] at h
    split_ifs at h

theorem nodup_maskSectors (m : SectorSet) (n : Nat) : (maskSectors m n).Nodup := List.nodup_range.filter _

theorem Board.keeps.placeJob (h : b.keeps S O L) {r : FileReq} (hc : b.fileCheck r = none) :
    (b.placeJob r).1.keeps S O L := by
  obtain ⟨ht, hv⟩ := Board.fileCheck_free hc
  have hid : nextJobId (b.re.jobs.map (·.id)) 255 b.re.lastId ∉ b.re.jobs.map (·.id) := by
    refine nextJobId_not_mem ?_ _
    have := Board.fileCheck_room hc
    rw [List.length_map]; omega
  have key (p : Board × List SalvageSector) (hp : p.1.keeps S O L) (hre : p.1.re = b.re)
      (hr : (p.2.map (·.sector)).Nodup ∧ ∀ r ∈ p.2, r.caps = [] ∧ slotIn r.slot) (j : Job)
      (hj : j.sectors = p.2) (hrel : ∀ x ∈ j.relay, x.slotsIn)
      (hname : j.id = nextJobId (b.re.jobs.map (·.id)) 255 b.re.lastId ∧ j.serial = b.re.nextSerial ∧
        j.kind = r.kind ∧ j.drive = r.drive ∧ j.cyl = r.cyl ∧ j.head = if r.kind = .survey then 0 else r.head)
      (id : Nat) (sus : List Suspect)
      (hsus : sus = if r.kind = .survey then p.1.re.suspects else p.1.re.suspects.filter (·.track ≠ r.track)) :
      ({ p.1 with re := { p.1.re with
        jobs := p.1.re.jobs ++ [p.1.prepareCheck j], lastId := id, nextSerial := b.re.nextSerial + 1,
        suspects := sus } } : Board).keeps S O L := by
    obtain ⟨⟨n1, n2, n3, n4, n5, n6⟩, hsec, hrelay⟩ := p.1.prepareCheck_same j
    obtain ⟨m1, m2, m3, m4, m5, m6⟩ := hname
    have hkind : (p.1.prepareCheck j).kind = r.kind := n3.trans m3
    have htr : r.kind ≠ .survey → (p.1.prepareCheck j).track = r.track := fun hk => by
      simp only [Job.track, FileReq.track, n4, n5, n6, m4, m5, m6, if_neg hk]
    rw [← hre]
    refine hp.addJob (fun _ => ⟨fun x hx => ?_, fun x hx => ?_⟩) ⟨?_, fun x hx => ?_⟩ ?_ ?_ (fun hk => ?_)
      (fun hk x hx hs => ?_) ?_
    · rw [hsec, hj] at hx
      obtain ⟨hcaps, hslot⟩ := hr.2 x hx
      exact ⟨hslot, fun c hcm => by rw [hcaps] at hcm; cases hcm⟩
    · rw [hrelay] at hx; exact hrel x hx
    · rw [hsec, hj]; exact hr.1
    · rw [hsec, hj] at hx; rw [(hr.2 x hx).1]; exact Nat.zero_le _
    · rw [n1, m1, hre]; exact hid
    · rw [n2, m2, hre]
    · rw [hkind] at hk
      have := ht hk
      unfold Board.trackJob at this ⊢
      rwa [hre, htr hk]
    · rw [hkind] at hk
      rw [hre] at hx
      rw [n4, m4]; exact hv hk x hx hs
    · rw [hkind, hsus]
      split
      · rfl
      · rename_i hk; rw [htr hk]
  have hrel (n : Nat) : ∀ x ∈ (List.range n).map fun k =>
      ({ sector := k, aside := none, image := none, written := false, verified := false } : RelaySector),
      x.slotsIn := by
    intro x hx
    obtain ⟨k, -, rfl⟩ := List.mem_map.1 hx
    exact ⟨slotIn_none, slotIn_none⟩
  have none_ : ((([] : List SalvageSector).map (·.sector)).Nodup ∧
      ∀ r ∈ ([] : List SalvageSector), r.caps = [] ∧ slotIn r.slot) := ⟨List.nodup_nil, fun r hr => by cases hr⟩
  unfold Board.placeJob
  cases hk : r.kind
  · refine key _ (h.reserveSectors _) (Board.reserveSectors_re b _ _) ?_ _ rfl (fun x hx => by cases hx)
      ⟨rfl, rfl, hk.symm, rfl, rfl, by simp [hk]⟩ _ _ (by simp [hk])
    obtain ⟨h1, h2⟩ := b.reserveSectors_records r.track (maskSectors r.target 16)
    exact ⟨by rw [h1]; exact nodup_maskSectors _ _, h2⟩
  · exact key (b, []) h rfl none_ _ rfl (hrel _) ⟨rfl, rfl, hk.symm, rfl, rfl, by simp [hk]⟩ _ _ (by simp [hk])
  · exact key (b, []) h rfl none_ _ rfl (fun x hx => by cases hx)
      ⟨rfl, rfl, hk.symm, rfl, rfl, by simp [hk]⟩ _ _ (by simp [hk])

theorem Board.keeps.finishAtOnce (h : b.keeps S O L) {j : Job} : (b.finishAtOnce j).keeps S O L := by
  unfold Board.finishAtOnce
  repeat' split
  · exact h.finishCore
  · exact h.finishCore
  · exact h

/-! ### The examination (R103) and what ends in it -/

theorem Board.keeps.tryEntry (h : b.keeps S O L) {x : Suspect} : (b.tryEntry x).keeps S O L := by
  unfold Board.tryEntry
  extract_lets p r
  split
  · exact h
  · rename_i hc
    split
    · exact h.modLp fun _ => by rfl
    · exact (h.placeJob (r := r) (by simpa using hc)).note.finishAtOnce

theorem Board.keeps.walkSuspects (h : b.keeps S O L) : b.walkSuspects.keeps S O L := by
  unfold Board.walkSuspects
  refine h.foldl _ fun c d _ hc => ?_
  split
  · exact hc.foldl _ fun _ _ _ hx => hx.tryEntry
  · exact hc

theorem Board.keeps.examineFor (h : b.keeps S O L) (n : Nat) : (b.examineFor n).keeps S O L := by
  induction n generalizing b with
  | zero => exact h
  | succ n ih =>
    unfold Board.examineFor
    split
    · exact ih (h.exam false).walkSuspects
    · exact h

theorem Board.keeps.examine (h : b.keeps S O L) : b.examine.keeps S O L := h.examineFor _

theorem Board.keeps.report (h : b.keeps S O L) {t : Track} {mask : SectorSet} {src : Source} :
    (b.report t mask src).keeps S O L := h.addReport.examine

theorem Board.keeps.finish (h : b.keeps S O L) {n : Nat} {o : Outcome} : (b.finish n o).keeps S O L :=
  h.finishCore.examine

theorem Board.keeps.restOrFinish (h : b.keeps S O L) {n : Nat} : (b.restOrFinish n).keeps S O L := by
  unfold Board.restOrFinish
  split
  · exact h.modJob fun _ => by exact Job.same_rfl _
  · exact h.finish

theorem Board.keeps.settleCheck (h : b.keeps S O L) {n : Nat} : (b.settleCheck n).keeps S O L := by
  unfold Board.settleCheck
  repeat' split
  · exact h.finish
  · exact h
  · exact h

theorem Board.keeps.completeCheck (h : b.keeps S O L) {n : Nat} : (b.completeCheck n).keeps S O L := by
  unfold Board.completeCheck
  repeat' split
  · exact h.finish
  · exact h
  · exact h

/-! ### Entries handed on (R40, R109, R134) -/

theorem Job.actStale_keeps {S L : Prop} (j : Job) : j.keeps S L j.actStale := by
  unfold Job.actStale
  repeat' split
  · exact Job.keeps_of_same (Job.sameName.refl j) rfl rfl
  · exact Job.keeps_of_same (Job.sameName.refl j) rfl rfl
  · exact Job.keeps_of_same (Job.sameName.refl j) rfl rfl
  · refine ⟨fun _ hj => ⟨hj.1, fun r hr => ?_⟩, fun _ => ⟨Job.sameName.refl j, fun hj => hj⟩⟩
    obtain ⟨x, hx, rfl⟩ := List.mem_map.1 hr
    exact hj.2 x hx

theorem Board.keeps.actStale (h : b.keeps S O L) {n : Nat} : (b.modJob n Job.actStale).keeps S O L :=
  h.modJobAt fun j _ _ => j.actStale_keeps

theorem Board.keeps.markStale (h : b.keeps S O L) {t : Track} : (b.markStale t).keeps S O L := by
  unfold Board.markStale
  dsimp only
  repeat' split
  · refine h.modJobAt fun j _ _ => ?_
    have h1 : j.keeps S L { j with stale := true } := Job.keeps_of_same (Job.sameName.refl j) rfl rfl
    split
    · exact h1.trans (Job.actStale_keeps _)
    · exact h1
  · exact h
  · exact h

theorem Board.keeps.supersede (h : b.keeps S O L) {a : Addr} : (b.supersede a).keeps S O L := by
  unfold Board.supersede
  split
  · rename_i j _
    dsimp only
    split
    · have h1 := h.modSector (n := j.serial) (k := a.sector.val)
        (g := fun r => { r with status := .superseded, slot := none })
        fun r => ⟨rfl, .inr rfl, List.Sublist.refl _⟩
      split
      · exact h1.letGo.supersedeSolve.examine.completeCheck.settleCheck
      · exact h1.supersedeSolve.examine.completeCheck.settleCheck
    · exact h
  · exact h

theorem Board.keeps.handOn (h : b.keeps S O L) {a : Addr} : (b.handOn a).keeps S O L := h.supersede.markStale

end

end Sys2Proof.Machine
end

section
/-! PROOFS. The arbiter and the read channel keep the tables' invariants. -/

namespace Sys2Proof.Machine

section
variable {b : Board} {S O L : Prop}

/-! ### Filings and the write gate (R35, R91) -/

theorem Board.keeps.fileNow (h : b.keeps S O L) {p : List Byte} : (b.fileNow p).keeps S O L := by
  unfold Board.fileNow
  dsimp only
  repeat' split
  · exact h.deny
  · exact h.deny
  · exact h.deny
  · rename_i hc
    exact (h.placeJob hc).reply.finishAtOnce

theorem Board.keeps.filing (h : b.keeps S O L) (x : Option (List Byte)) :
    ({ b with filing := x } : Board).keeps S O L := h

theorem Board.keeps.afterGate (h : b.keeps S O L) {d : DriveNo} : (b.afterGate d).keeps S O L := by
  have finish (c : Board) (hc : c.keeps S O L) :
      (if (c.drv d).lp.autoWait then { c.modLp d fun lp => { lp with autoWait := false } with exam := true }
        else c : Board).keeps S O L := by
    split
    · exact (hc.modLp fun _ => by rfl).exam true
    · exact hc
  unfold Board.afterGate
  refine finish _ ?_
  repeat' split
  · exact h
  · exact (h.filing none).fileNow
  · exact h
  · exact h

/-! ### Live commands (R15, R17..R20, R23) -/

theorem Board.keeps.sendMove (h : b.keeps S O L) {d : DriveNo} : (b.sendMove d).keeps S O L := h.modPins

theorem Board.keeps.applyPending (h : b.keeps S O L) {d : DriveNo} : (b.applyPending d).keeps S O L := h.modDa

theorem Board.keeps.enterTaking (h : b.keeps S O L) {d : DriveNo} : (b.enterTaking d).keeps S O L := by
  unfold Board.enterTaking
  dsimp only
  split
  · exact h.modDa
  · exact h

theorem Board.keeps.goBusy (h : b.keeps S O L) {d : DriveNo} : (b.goBusy d).keeps S O L := h.modDa

theorem Board.keeps.courseRead (h : b.keeps S O L) {d : DriveNo} : (b.courseRead d).keeps S O L := by
  unfold Board.courseRead
  dsimp only
  repeat' split
  · exact h
  · exact h.modLp fun _ => by rfl
  · rename_i he _ _
    exact (h.modLp fun _ => by rfl).startFill (h.entrySlot he)
  · exact h.makeRelay
  · exact h.makeRelay

theorem Board.keeps.startCommand (h : b.keeps S O L) {d : DriveNo} {c : CtrlCmd} :
    (b.startCommand d c).keeps S O L := by
  unfold Board.startCommand
  split
  · exact (h.sendMove.modLp fun _ => by rfl).goBusy.enterTaking
  · exact (h.sendMove.modLp fun _ => by rfl).goBusy.enterTaking
  · exact (h.modPins.modLp fun _ => by rfl).modDa
  · exact (h.modLp fun _ => by rfl).courseRead.goBusy.enterTaking
  · exact (h.modLp fun _ => by rfl).goBusy.enterTaking

theorem Board.keeps.clearHold (h : b.keeps S O L) {d : DriveNo} : (b.clearHold d).keeps S O L := h.modDa

theorem Board.keeps.startHeld (h : b.keeps S O L) {d : DriveNo} : (b.startHeld d).keeps S O L := by
  unfold Board.startHeld
  dsimp only
  repeat' split
  · exact (h.modLp fun _ => by rfl).clearHold
  · exact (h.modLp fun _ => by rfl).clearHold.startCommand
  · exact h

theorem Board.keeps.goIdle (h : b.keeps S O L) {d : DriveNo} : (b.goIdle d).keeps S O L := h.modDa.startHeld

/-! ### Restore and hand-back (R84, R85) -/

theorem Board.keeps.handBack (h : b.keeps S O L) {d : DriveNo} : (b.handBack d).keeps S O L := h.modDa.goIdle

theorem Board.keeps.restoreHead (h : b.keeps S O L) {d : DriveNo} : (b.restoreHead d).keeps S O L :=
  h.modPins.handBack

theorem Board.keeps.sendRestoreSeek (h : b.keeps S O L) {d : DriveNo} : (b.sendRestoreSeek d).keeps S O L :=
  h.sendMove.modDa

theorem Board.keeps.restoreSeek (h : b.keeps S O L) {d : DriveNo} : (b.restoreSeek d).keeps S O L := by
  unfold Board.restoreSeek
  dsimp only
  split
  · exact h.restoreHead
  · exact h.sendRestoreSeek

theorem Board.keeps.setOffset (h : b.keeps S O L) {d : DriveNo} {o : Offset} : (b.setOffset d o).keeps S O L := by
  unfold Board.setOffset
  split
  · exact h
  · exact h.modRc fun _ => by exact ⟨rfl, rfl, rfl⟩

theorem Board.keeps.restoreSteps (h : b.keeps S O L) {d : DriveNo} : (b.restoreSteps d).keeps S O L := by
  unfold Board.restoreSteps
  split
  · exact h.setOffset.modDa
  · exact h.restoreSeek

theorem Board.keeps.restore (h : b.keeps S O L) {d : DriveNo} : (b.restore d).keeps S O L := h.modDa.restoreSteps

theorem Board.keeps.restoreFail (h : b.keeps S O L) {d : DriveNo} : (b.restoreFail d).keeps S O L :=
  (h.modDa.note.modLp fun _ => by rfl).clearHold

/-! ### The engine told of an end (R93, R95, R104..R109) -/

/-- Another job with the same name and sector records. -/
theorem Board.knows.same {j j' : Job} (h : b.knows S L j)
    (hj : j.sameName j' ∧ j'.sectors = j.sectors ∧ j'.relay = j.relay) : b.knows S L j' := by
  obtain ⟨hn, hs, hr⟩ := hj
  refine ⟨fun hS => ?_, fun hL => ⟨?_, fun x hx e => ?_⟩⟩
  · have := h.1 hS
    unfold Job.slotsIn at this ⊢
    rwa [hs, hr]
  · have := (h.2 hL).1
    unfold Job.setsLawful at this ⊢
    rwa [hs]
  · obtain ⟨h1, h2, h3, h4, h5, h6⟩ := (h.2 hL).2 x hx (e.trans hn.2.1)
    obtain ⟨g1, g2, g3, g4, g5, g6⟩ := hn
    exact ⟨g1.trans h1, g2.trans h2, g3.trans h3, g4.trans h4, g5.trans h5, g6.trans h6⟩

/-- The table with a job put back knows it. -/
theorem Board.knows.put {j : Job} {n : Nat} (h : b.knows S L j) (hn : j.serial = n) :
    (b.modJob n fun _ => j).knows S L j := by
  refine ⟨h.1, fun hL => ⟨(h.2 hL).1, fun x hx e => ?_⟩⟩
  obtain ⟨y, hy, rfl⟩ := List.mem_map.1 hx
  split
  · exact Job.sameName.refl j
  · rename_i hne
    rw [if_neg hne, hn] at e
    exact absurd e hne

theorem Job.same_trans {j j' j'' : Job} (h : j.sameName j' ∧ j'.sectors = j.sectors ∧ j'.relay = j.relay)
    (h' : j'.sameName j'' ∧ j''.sectors = j'.sectors ∧ j''.relay = j'.relay) :
    j.sameName j'' ∧ j''.sectors = j.sectors ∧ j''.relay = j.relay := by
  obtain ⟨⟨h1, h2, h3, h4, h5, h6⟩, h7, h8⟩ := h
  obtain ⟨⟨g1, g2, g3, g4, g5, g6⟩, g7, g8⟩ := h'
  exact ⟨⟨g1.trans h1, g2.trans h2, g3.trans h3, g4.trans h4, g5.trans h5, g6.trans h6⟩, g7.trans h7, g8.trans h8⟩

theorem Job.endRepeat_same (j : Job) :
    j.sameName j.endRepeat ∧ j.endRepeat.sectors = j.sectors ∧ j.endRepeat.relay = j.relay := by
  unfold Job.endRepeat
  split
  · exact ⟨Job.sameName.refl j, rfl, rfl⟩
  · exact ⟨Job.sameName.refl j, rfl, rfl⟩

theorem Job.normalise_same (j : Job) (l : List LadderStep) :
    j.sameName (j.normalise l) ∧ (j.normalise l).sectors = j.sectors ∧ (j.normalise l).relay = j.relay := by
  unfold Job.normalise
  repeat' split
  · exact ⟨Job.sameName.refl j, rfl, rfl⟩
  · exact j.endRepeat_same
  · exact j.endRepeat_same
  · exact ⟨Job.sameName.refl j, rfl, rfl⟩
  · exact ⟨Job.sameName.refl j, rfl, rfl⟩

theorem Job.advance_same (j : Job) (l : List LadderStep) :
    j.sameName (j.advance l) ∧ (j.advance l).sectors = j.sectors ∧ (j.advance l).relay = j.relay := by
  unfold Job.advance
  split
  · exact ⟨Job.sameName.refl j, rfl, rfl⟩
  · exact Job.normalise_same { j with passes := j.passes + 1 } l

theorem Board.keeps.rewait (h : b.keeps S O L) {n : Nat} : (b.rewait n).keeps S O L :=
  h.modJob fun _ => by exact Job.same_rfl _

theorem Board.keeps.surveyEnd (h : b.keeps S O L) {j : Job} {full found : Bool} :
    (b.surveyEnd j full found).keeps S O L := by
  unfold Board.surveyEnd
  extract_lets b1
  have h1 : b1.keeps S O L := by
    simp only [b1]
    split
    · exact h.modJob fun _ => by exact Job.same_rfl _
    · exact h
  repeat' split
  · exact h1.rewait
  · exact h1.finish
  · exact h1

theorem Board.keeps.reportSurvey (h : b.keeps S O L) {d : DriveNo} : (b.reportSurvey d).keeps S O L := by
  unfold Board.reportSurvey
  dsimp only
  split
  · exact h
  · exact h.report

/-- A RELAY's records changed all alike, their slots in the store. -/
theorem Board.keeps.mapRelay (h : b.keeps S O L) {n : Nat} {f : Job → Job} {g : RelaySector → RelaySector}
    (hf : ∀ j, j.sameName (f j) ∧ (f j).sectors = j.sectors ∧ (f j).relay = j.relay.map g)
    (hg : ∀ r, r.slotsIn → (g r).slotsIn) : (b.modJob n f).keeps S O L := by
  refine h.modJobAt fun j _ _ => ?_
  obtain ⟨h1, h2, h3⟩ := hf j
  refine ⟨fun _ hj => ⟨?_, fun r hr => ?_⟩, fun _ => ⟨h1, fun hj => ?_⟩⟩
  · rw [h2]; exact hj.1
  · rw [h3] at hr
    obtain ⟨x, hx, rfl⟩ := List.mem_map.1 hr
    exact hg x (hj.2 x hx)
  · unfold Job.setsLawful
    rw [h2]; exact hj

theorem Board.keeps.relayEnd (h : b.keeps S O L) {j : Job} {full : Bool} (hj : b.knows S L j) :
    (b.relayEnd j full).keeps S O L := by
  unfold Board.relayEnd
  split
  · extract_lets j1 b1
    have same : j.sameName j1 ∧ j1.sectors = j.sectors ∧ j1.relay = j.relay :=
      b.prepareCheck_same { j with stale := false, stepPass := if full then j.stepPass + 1 else j.stepPass }
    have h1 : b1.keeps S O L := h.putJob (hj.same same) same.1.2.1
    split
    · exact h1.finish
    · exact h1.rewait
  · repeat' split
    · exact h.finish
    · exact (h.mapRelay (g := fun r => { r with verified := false }) (fun _ => by exact ⟨.refl _, rfl, rfl⟩)
        fun _ hr => hr).rewait
    · exact (h.modJob fun _ => by exact Job.same_rfl _).rewait
  · dsimp only
    repeat' split
    · exact h.actStale.rewait
    · exact h.finish
    · exact (h.modJob fun _ => by exact Job.same_rfl _).finish
    · exact (h.modJob fun _ => by exact Job.same_rfl _).rewait
    · exact (h.modJob fun _ => by exact Job.same_rfl _).finish
    · exact (h.modJob fun _ => by exact Job.same_rfl _).rewait

theorem Board.keeps.salvageRest (h : b.keeps S O L) {n : Nat} : (b.salvageRest n).keeps S O L := by
  unfold Board.salvageRest
  repeat' split
  · exact h.rewait
  · exact h.restOrFinish
  · exact h

theorem Board.keeps.enginePassEnd (h : b.keeps S O L) {n : Nat} {full found : Bool} :
    (b.enginePassEnd n full found).keeps S O L := by
  unfold Board.enginePassEnd
  split
  · exact h
  · rename_i j hj
    extract_lets j1 b1
    have hs : j1.serial = n := (Board.job_mem hj).2
    have hk : b.knows S L j1 := (h.knows hj).same ⟨Job.sameName.refl j, rfl, rfl⟩
    have h1 : b1.keeps S O L := h.putJob hk hs
    split
    · refine (h1.modJob fun x => ?_).salvageRest
      split
      · exact x.advance_same _
      · exact x.normalise_same _
    · exact h1.surveyEnd
    · exact h1.relayEnd (hk.put hs)

theorem Board.keeps.enginePosEnd (h : b.keeps S O L) {n : Nat} : (b.enginePosEnd n).keeps S O L := by
  unfold Board.enginePosEnd
  repeat' split
  · exact h
  · exact (h.modJob fun x => x.normalise_same _).salvageRest
  · exact h.rewait
  · exact h.actStale.rewait

/-! ### The pass (R62, R79, R96, R105, R106) -/

theorem Board.keeps.setAsideRelay (h : b.keeps S O L) (n k : Nat) :
    (b.setAsideRelay n k).1.keeps S O L ∧ slotIn (b.setAsideRelay n k).2 := by
  unfold Board.setAsideRelay
  split
  · rename_i slot hslot
    have hs := slotIn_some.2 (Store.freePoolSlot_lt hslot)
    exact ⟨h.usePool.modRelay fun _ r hr => ⟨hs, hr.2⟩, hs⟩
  · exact ⟨h, slotIn_none⟩

/-- The slots a list of planned slots names. -/
def plansIn (ps : List SlotPlan) : Prop := ∀ p ∈ ps, slotIn (p.capture.bind (·.slot))

theorem plansIn.cons {p : SlotPlan} {ps : List SlotPlan} (hp : slotIn (p.capture.bind (·.slot))) (h : plansIn ps) :
    plansIn (p :: ps) := by
  intro q hq
  obtain rfl | hq := List.mem_cons.1 hq
  · exact hp
  · exact h q hq

theorem plansIn_nil : plansIn [] := fun p hp => by cases hp

theorem plansIn_checkPlans (n : Nat) : plansIn (checkPlans n) := by
  intro p hp
  obtain ⟨k, -, rfl⟩ := List.mem_map.1 hp
  exact slotIn_none

theorem Board.keeps.salvagePlans (h : b.keeps S O L) (n : Nat) (rs : List SalvageSector) :
    (b.salvagePlans n rs).1.keeps S O L ∧ plansIn (b.salvagePlans n rs).2 := by
  induction rs generalizing b with
  | nil => exact ⟨h, plansIn_nil⟩
  | cons r rs ih =>
    unfold Board.salvagePlans
    dsimp only
    split
    · obtain ⟨h1, h2⟩ := h.setAside n r.sector
      obtain ⟨h3, h4⟩ := ih h1
      exact ⟨h3, h4.cons h2⟩
    · exact ih h

theorem Board.keeps.preparePlans (h : b.keeps S O L) (n : Nat) (t : Track) (rs : List RelaySector) :
    (b.preparePlans n t rs).1.keeps S O L ∧ plansIn (b.preparePlans n t rs).2 := by
  induction rs generalizing b with
  | nil => exact ⟨h, plansIn_nil⟩
  | cons r rs ih =>
    unfold Board.preparePlans
    dsimp only
    split
    · obtain ⟨h1, h2⟩ := h.setAsideRelay n r.sector
      obtain ⟨h3, h4⟩ := ih h1
      exact ⟨h3, h4.cons h2⟩
    · exact ih h

theorem Board.keeps.fatalWrite (h : b.keeps S O L) {d : DriveNo} {n : Nat} : (b.fatalWrite d n).keeps S O L :=
  (h.modJob fun _ => by exact Job.same_rfl _).modDa

theorem Board.keeps.imageSlot (h : b.keeps S O L) {n k : Nat} {j : Job} {c : Capture} (hj : b.job n = some j)
    (hc : (j.relayRec k).bind (·.image) = some c) (hS : S) : c.slot < Config.allSlots := by
  obtain ⟨r, hr, hi⟩ := Option.bind_eq_some_iff.1 hc
  have := ((h.jobSlots (Board.job_mem hj).1 hS).2 r (List.mem_of_find?_eq_some hr)).2
  rw [hi] at this
  exact slotIn_some.1 this

theorem Board.keeps.startWriteFill (h : b.keeps S O L) {d : DriveNo} {n k : Nat} :
    (b.startWriteFill d n k).keeps S O L := by
  unfold Board.startWriteFill
  split
  · exact h
  · rename_i j hj
    dsimp only
    split
    · rename_i e he
      exact h.modDa.requestReads (h.entrySlot (Option.eq_some_of_filter_eq_some he)) (by decide)
    · rename_i c _ hc
      split
      · exact h.modDa.requestReads (h.imageSlot hj hc) (by decide)
      · exact h.modDa
    · exact h.fatalWrite

theorem Board.keeps.dropWriteFill (h : b.keeps S O L) {d : DriveNo} : (b.dropWriteFill d).keeps S O L :=
  h.dropOps.modDa

theorem Board.keeps.givePass (h : b.keeps S O L) {d : DriveNo} {j : Job} : (b.givePass d j).keeps S O L := by
  unfold Board.givePass
  extract_lets plan give sectors
  have give_keeps (c : Board) (tag : PassTag) (ps : List SlotPlan) (hc : c.keeps S O L) (hps : plansIn ps) :
      (give c tag ps).keeps S O L := hc.modRcSlots fun _ ⟨h0, h1, _⟩ => ⟨h0, h1, hps⟩
  split
  · obtain ⟨h1, h2⟩ := h.salvagePlans j.serial j.sectors
    exact give_keeps _ _ _ h1 h2
  · exact give_keeps _ _ _ h (plansIn_checkPlans _)
  · split
    · obtain ⟨h1, h2⟩ := h.preparePlans j.serial j.track j.relay
      exact give_keeps _ _ _ h1 h2
    · exact give_keeps _ _ _ h (plansIn_checkPlans _)
    · exact give_keeps _ _ _ h (plansIn_checkPlans _)

theorem Board.keeps.passStart (h : b.keeps S O L) {d : DriveNo} {j : Job} : (b.passStart d j).keeps S O L := by
  unfold Board.passStart
  dsimp only
  split
  · exact h.modDa.startWriteFill
  · exact h.modDa.givePass

theorem Board.keeps.posComplete (h : b.keeps S O L) {d : DriveNo} : (b.posComplete d).keeps S O L := by
  unfold Board.posComplete
  dsimp only
  repeat' split
  · exact h.modDa.enginePosEnd.applyPending.restore
  · exact h.modDa.passStart
  · exact h.modDa.applyPending.restore

/-! ### Positioning, takes and decisions (R76, R77, R80) -/

theorem Board.keeps.posOffsetOn (h : b.keeps S O L) {d : DriveNo} : (b.posOffsetOn d).keeps S O L := by
  unfold Board.posOffsetOn
  dsimp only
  split
  · exact h.posComplete
  · exact h.setOffset.modDa

theorem Board.keeps.posHead (h : b.keeps S O L) {d : DriveNo} : (b.posHead d).keeps S O L := h.modPins.posOffsetOn

theorem Board.keeps.posSeek (h : b.keeps S O L) {d : DriveNo} : (b.posSeek d).keeps S O L := by
  unfold Board.posSeek
  dsimp only
  split
  · exact h.posHead
  · exact h.sendMove.modDa

theorem Board.keeps.posRecal (h : b.keeps S O L) {d : DriveNo} : (b.posRecal d).keeps S O L := by
  unfold Board.posRecal
  dsimp only
  split
  · exact h.sendMove.modDa
  · exact h.posSeek

theorem Board.keeps.posBegin (h : b.keeps S O L) {d : DriveNo} : (b.posBegin d).keeps S O L := by
  unfold Board.posBegin
  split
  · exact h.setOffset.modDa
  · exact h.posRecal

theorem Board.keeps.activate (h : b.keeps S O L) {j : Job} : (b.activate j).keeps S O L :=
  h.modJob fun x => by
    dsimp only
    split
    · exact ⟨Job.sameName.refl x, rfl, rfl⟩
    · exact ⟨Job.sameName.refl x, rfl, rfl⟩

theorem Board.keeps.serve (h : b.keeps S O L) {d : DriveNo} {j : Job} : (b.serve d j).2.keeps S O L := by
  unfold Board.serve
  dsimp only
  split
  · split
    · exact h.activate.finish
    · exact h.activate.modDa.posBegin
  · exact h.activate

theorem Board.keeps.decideFor (h : b.keeps S O L) (d : DriveNo) (n : Nat) : (Board.decideFor d n b).keeps S O L := by
  induction n generalizing b with
  | zero => exact h.restore
  | succ n ih =>
    unfold Board.decideFor
    dsimp only
    repeat' split
    · exact h.applyPending.modDa.restore
    · exact h.applyPending.modDa.restore
    · exact h.applyPending.modDa.serve
    · exact ih h.applyPending.modDa.serve

theorem Board.keeps.decide (h : b.keeps S O L) {d : DriveNo} : (b.decide d).keeps S O L := h.decideFor d 8

theorem Board.keeps.takeFor (h : b.keeps S O L) {d : DriveNo} {j : Job} : (b.takeFor d j).keeps S O L := by
  unfold Board.takeFor
  dsimp only
  split
  · exact h.serve
  · exact h.serve.modDa.decide

theorem Board.keeps.tryTake (h : b.keeps S O L) {d : DriveNo} : (b.tryTake d).keeps S O L := by
  unfold Board.tryTake
  split
  · exact h.takeFor
  · exact h

theorem Board.keeps.liveEnded (h : b.keeps S O L) {d : DriveNo} : (b.liveEnded d).keeps S O L := by
  unfold Board.liveEnded
  dsimp only
  repeat' split
  · exact h.applyPending.goIdle
  · exact h.applyPending.goIdle
  · exact h.applyPending.takeFor
  · exact h.applyPending.goIdle
  · exact h

theorem Board.keeps.abandonPosition (h : b.keeps S O L) {d : DriveNo} : (b.abandonPosition d).keeps S O L := by
  unfold Board.abandonPosition
  dsimp only
  split
  · exact h.enginePosEnd.decide
  · exact h.decide

/-! ### The channel's slots (R61..R67) -/

theorem Board.keeps.freeBuf (h : b.keeps S O L) {d : DriveNo} {i : Fin 2} : (b.freeBuf d i).keeps S O L :=
  h.modRcSlots fun _ hx => hx.setBuf i slotIn_none

theorem Board.keeps.beginHunt (h : b.keeps S O L) {d : DriveNo} {k : Nat} {cap : Option CaptureFor}
    (hc : S → slotIn (cap.bind (·.slot))) : (b.beginHunt d k cap).keeps S O L := by
  unfold Board.beginHunt
  dsimp only
  split
  · exact h.modRc fun _ => by exact ⟨rfl, rfl, rfl⟩
  · rename_i c i _
    refine h.modRcSlots fun hS hx => ?_
    refine Channel.slotsIn.setBuf ?_ i (hc hS)
    exact hx
  · exact (h.modRc fun _ => by exact ⟨rfl, rfl, rfl⟩).dropAside

theorem Board.keeps.openLive (h : b.keeps S O L) {d : DriveNo} {k : Nat} : (b.openLive d k).keeps S O L := by
  unfold Board.openLive
  split
  · rename_i x hx
    split
    · refine Board.keeps.beginHunt (h.modRcSlots fun _ ⟨h0, h1, _⟩ => ⟨h0, h1, slotIn_none⟩) fun hS => ?_
      have := (h.chanSlots d hS).2.2
      rwa [hx] at this
    · exact h
  · exact h

theorem Board.keeps.openPass (h : b.keeps S O L) {d : DriveNo} {k : Nat} : (b.openPass d k).keeps S O L := by
  unfold Board.openPass
  split
  · rename_i x hx
    have plans (hS : S) : plansIn x.plans := by
      have := (h.chanSlots d hS).2.2
      rwa [hx] at this
    split
    · rename_i p hp
      refine Board.keeps.beginHunt (h.modRcSlots fun hS ⟨h0, h1, _⟩ => ⟨h0, h1, fun q hq => ?_⟩) fun hS =>
        plans hS p (List.mem_of_find?_eq_some hp)
      obtain ⟨y, hy, rfl⟩ := List.mem_map.1 hq
      split
      · exact plans hS y hy
      · exact plans hS y hy
    · exact h
  · exact h

theorem Board.keeps.withdraw (h : b.keeps S O L) {d : DriveNo} : (b.withdraw d).keeps S O L := by
  unfold Board.withdraw
  dsimp only
  exact (h.foldl _ fun c _ _ hc => hc.dropAside).modRcSlots fun _ ⟨h0, h1, _⟩ => ⟨h0, h1, trivial⟩

theorem Board.keeps.bufSlot (h : b.keeps S O L) {d : DriveNo} {i : Fin 2} {slot : Nat}
    (hs : ((b.drv d).rc.buf i).who.slot = some slot) (hS : S) : slot < Config.allSlots :=
  slotIn_some.1 (hs ▸ (h.chanSlots d hS).buf i)

theorem Board.keeps.writeCapture (h : b.keeps S O L) {d : DriveNo} {i : Fin 2} {slot : Nat}
    (hs : S → slot < Config.allSlots) : (b.writeCapture d i slot).keeps S O L :=
  Board.keeps.requestWrites (h.modRcSlots fun hS hx => hx.setBuf i (slotIn_some.2 (hs hS))) hs

theorem lowestCapture_mem {caps : List Capture} {c : Capture} (h : lowestCapture caps = some c) : c ∈ caps := by
  induction caps generalizing c with
  | nil => cases h
  | cons x xs ih =>
    unfold lowestCapture at h
    split at h
    · split at h
      · cases h; simp
      · cases h
    · rename_i y hy
      split at h
      · cases h; simp
      · cases h; exact List.mem_cons_of_mem _ (ih hy)

/-- A set with one of its captures' slots given to a pending entry is no larger. -/
theorem Board.keeps.replaceCapture (h : b.keeps S O L) {n k : Nat} {j : Job} {r : SalvageSector} {c c' : Capture}
    {p : Capture → Bool} (hj : b.job n = some j) (hr : j.sectorRec k = some r) (hc : c ∈ r.caps)
    (hp : p c = false) (hs : S → c'.slot < Config.allSlots) :
    (b.modJob n fun j => j.modSector k fun r => { r with caps := r.caps.filter p ++ [c'] }).keeps S O L := by
  refine h.modSectorAt hj hr (fun _ => rfl) (fun hS x hx => hx.setCaps fun y hy => ?_) fun _ h8 => ?_
  · obtain hy | hy := List.mem_append.1 hy
    · exact .inl (List.mem_filter.1 hy).1
    · cases List.mem_singleton.1 hy
      exact .inr (hs hS)
  · have : (r.caps.filter p).length < r.caps.length :=
      List.length_filter_lt_length_iff_exists.2 ⟨c, hc, by simp [hp]⟩
    simp only [List.length_append, List.length_singleton]
    omega

theorem Board.keeps.handSalvage (h : b.keeps S O L) {d : DriveNo} {i : Fin 2} : (b.handSalvage d i).keeps S O L := by
  unfold Board.handSalvage
  dsimp only
  split
  · exact h.freeBuf
  · rename_i j hj
    split
    · exact h.freeBuf
    · rename_i r hr
      split
      · exact h.dropAside.freeBuf
      · split
        · rename_i slot hslot
          exact h.writeCapture (h.bufSlot hslot)
        · split
          · rename_i c hc
            have hcm := lowestCapture_mem hc
            have hs (hS : S) : c.slot < Config.allSlots := slotIn_some.1 ((h.sectorSlots hj hr hS).2 c hcm)
            have hj' : b.job j.serial = some j := by rw [(Board.job_mem hj).2]; exact hj
            have hr' : j.sectorRec r.sector = some r := by
              have : r.sector = ((b.drv d).rc.buf i).who.sector := by simpa using List.find?_some hr
              rw [this]; exact hr
            split
            · exact (h.replaceCapture (c' := .pendingAt c.slot) hj' hr' hcm (by simp) hs).writeCapture hs
            · exact h.freeBuf
          · exact h.freeBuf

theorem Board.keeps.handPrepare (h : b.keeps S O L) {d : DriveNo} {i : Fin 2} : (b.handPrepare d i).keeps S O L := by
  unfold Board.handPrepare
  dsimp only
  split
  · rename_i j slot hj hslot
    have hs := h.bufSlot hslot
    split
    · refine Board.keeps.writeCapture (h.modRelay ?_) hs
      exact fun hS r _ => ⟨slotIn_none, slotIn_some.2 (hs hS)⟩
    · exact h.dropAside.freeBuf
  · exact h.freeBuf

theorem Board.keeps.liveReport (h : b.keeps S O L) {d : DriveNo} {image : Bool} :
    (b.liveReport d image).keeps S O L := by
  unfold Board.liveReport
  extract_lets rc a failed b1
  have h1 : b1.keeps S O L := by
    simp only [b1, failed]
    repeat' split
    · exact h.report
    · exact h.report
    · exact h
    · exact h.report.note
    · exact h.report
  repeat' split
  · exact h1
  · exact h1
  · exact h1.dropAside.freeBuf
  · exact h1.handSalvage
  · exact h1.handSalvage

theorem Board.keeps.passReport (h : b.keeps S O L) {d : DriveNo} {x : PassSetup} {image : Bool} :
    (b.passReport d x image).keeps S O L := by
  unfold Board.passReport
  dsimp only
  repeat' split
  · exact h
  · exact h.modDa
  · exact h.modRelay fun _ _ hr => hr
  · exact h
  · exact h.handPrepare
  · exact h
  · exact h
  · exact h.handSalvage
  · exact h
  · exact h
  · exact h

theorem Board.keeps.fillReport (h : b.keeps S O L) {d : DriveNo} {tag : PassTag} {passNo : Nat} :
    (b.fillReport d tag passNo).keeps S O L := by
  refine h.modRcSlots fun _ hx => ?_
  dsimp only
  split
  · exact hx
  · rename_i i _
    exact hx.setBuf i (hx.buf i)

theorem Board.keeps.loseBuffer (h : b.keeps S O L) {d : DriveNo} : (b.loseBuffer d).keeps S O L := by
  unfold Board.loseBuffer
  dsimp only
  split
  · exact h
  · exact h.dropAside.freeBuf

theorem Board.keeps.idleSlot (h : b.keeps S O L) {d : DriveNo} : (b.idleSlot d).keeps S O L :=
  h.modRc fun _ => by exact ⟨rfl, rfl, rfl⟩

theorem Board.keeps.reportSlot (h : b.keeps S O L) {d : DriveNo} : (b.reportSlot d).keeps S O L := by
  unfold Board.reportSlot
  dsimp only
  repeat' split
  · exact h
  · exact h.loseBuffer.idleSlot
  · exact h.fillReport.liveReport.idleSlot.withdraw
  · exact h.loseBuffer.liveReport.idleSlot.withdraw
  · exact h.fillReport.passReport.idleSlot
  · exact h.loseBuffer.passReport.idleSlot

theorem Board.keeps.stopChannel (h : b.keeps S O L) {d : DriveNo} : (b.stopChannel d).keeps S O L := by
  unfold Board.stopChannel
  dsimp only
  repeat' split
  · exact h.reportSlot.withdraw
  · exact h.loseBuffer.idleSlot.withdraw
  · exact h.withdraw
  · exact h.loseBuffer.idleSlot.withdraw
  · exact h.loseBuffer.idleSlot.withdraw

theorem Board.keeps.endPass (h : b.keeps S O L) {d : DriveNo} {full : Bool} : (b.endPass d full).keeps S O L := by
  unfold Board.endPass
  dsimp only
  split
  · exact h.withdraw.dropWriteFill.reportSurvey.examine.modDa.enginePassEnd
  · exact h.withdraw.dropWriteFill.reportSurvey.examine.modDa

theorem Board.keeps.passEnd (h : b.keeps S O L) {d : DriveNo} {full : Bool} : (b.passEnd d full).keeps S O L :=
  h.endPass.decide

theorem Board.keeps.passStop (h : b.keeps S O L) {d : DriveNo} : (b.passStop d).keeps S O L :=
  h.endPass.applyPending.restore

end

end Sys2Proof.Machine
end

section
/-! PROOFS. The solve unit and the store keep the tables' invariants. -/

namespace Sys2Proof.Machine

section
variable {b : Board} {S O L : Prop}

/-! ### The solve unit (R115, R120..R127) -/

theorem Board.mem_insertMember {m x : Member} {ms : List Member} (h : x ∈ b.insertMember m ms) :
    x = m ∨ x ∈ ms := by
  induction ms with
  | nil => exact .inl (List.mem_singleton.1 h)
  | cons y ys ih =>
    unfold Board.insertMember at h
    split at h
    · exact List.mem_cons.1 h
    · obtain rfl | h := List.mem_cons.1 h
      · exact .inr (by simp)
      · exact (ih h).imp_right (List.mem_cons_of_mem _)

/-- A snapshot's members are captures of the set. -/
theorem Board.mem_membersOf {caps : List Capture} {m : Member} (h : m ∈ b.membersOf caps) :
    ∃ c ∈ caps, m.slot = c.slot := by
  have fold (cs : List Capture) (ms : List Member) (hcs : ∀ c ∈ cs, c ∈ caps)
      (hms : ∀ x ∈ ms, ∃ c ∈ caps, x.slot = c.slot) :
      ∀ x ∈ cs.foldl (fun ms c => b.insertMember
        { slot := c.slot, time := c.time, tag := c.tag, passNo := c.passNo, data := none } ms) ms,
        ∃ c ∈ caps, x.slot = c.slot := by
    induction cs generalizing ms with
    | nil => exact hms
    | cons c cs ih =>
      refine ih _ (fun x hx => hcs x (List.mem_cons_of_mem _ hx)) fun x hx => ?_
      obtain rfl | hx := Board.mem_insertMember hx
      · exact ⟨c, hcs c (by simp), rfl⟩
      · exact hms x hx
  exact fold _ [] (fun c hc => (List.mem_filter.1 hc).1) (fun x hx => by cases hx) m h

theorem Job.misplaced_same (j : Job) (p : Option Nat) :
    j.sameName (j.misplaced p) ∧ (j.misplaced p).sectors = j.sectors ∧ (j.misplaced p).relay = j.relay := by
  unfold Job.misplaced
  repeat' split
  all_goals exact ⟨Job.sameName.refl j, rfl, rfl⟩

/-- A sector record's status, best result and slot changed, its slot kept or given up. -/
theorem Board.keeps.setStatus (h : b.keeps S O L) {n k : Nat} {g : SalvageSector → SalvageSector}
    (hg : ∀ r, (g r).sector = r.sector ∧ (g r).caps = r.caps ∧ ((g r).slot = r.slot ∨ (g r).slot = none)) :
    (b.modJob n fun j => j.modSector k g).keeps S O L :=
  h.modSector fun r => by
    obtain ⟨h1, h2, h3⟩ := hg r
    exact ⟨h1, h3, by rw [h2]⟩

theorem Board.keeps.deliver (h : b.keeps S O L) {f : Flight} {j : Job} {r : SalvageSector} {o : SolveEnd}
    {written : Bool} (hr : S → slotIn r.slot) : (b.deliver f j r o written).keeps S O L := by
  unfold Board.deliver
  extract_lets used status tell
  have status_keeps (c : Board) (st : SectorStatus) (hc : c.keeps S O L) : (status c st).keeps S O L :=
    (hc.setStatus fun _ => by exact ⟨rfl, rfl, .inl rfl⟩)
  split
  · exact h
  · exact h
  · exact (status_keeps b .ambiguous h).note
  · exact ((status_keeps b .misplaced h).modJob fun j => j.misplaced_same _).note
  · split
    · split
      · rename_i slot hslot
        have hs (hS : S) := hr hS slot hslot
        exact ((h.enterResult hs).setStatus fun _ => by exact ⟨rfl, rfl, .inr rfl⟩).note
      · exact h
    · split
      · exact (h.setStatus fun _ => by exact ⟨rfl, rfl, .inl rfl⟩).note
      · exact (status_keeps b .provisional h).note

theorem Board.keeps.closeSolve (h : b.keeps S O L) {f : Flight} : (b.closeSolve f).keeps S O L := by
  unfold Board.closeSolve
  dsimp only
  split
  · exact h.endSolve.joinQueue.completeCheck.settleCheck
  · exact h.endSolve.completeCheck.settleCheck

theorem Board.keeps.endWith (h : b.keeps S O L) {f : Flight} {o : SolveEnd} : (b.endWith f o).keeps S O L := by
  unfold Board.endWith
  split
  · rename_i j hj
    split
    · rename_i r hr
      exact (h.deliver fun hS => (h.sectorSlots hj hr hS).1).closeSolve
    · exact h.closeSolve
  · exact h.closeSolve

theorem Board.keeps.snapshotCheck (h : b.keeps S O L) : b.snapshotCheck.keeps S O L := by
  unfold Board.snapshotCheck
  split
  · exact h
  · rename_i f hf
    split
    · exact h
    · split
      · exact h
      · split
        · exact h.closeSolve
        · rename_i j hj
          split
          · exact h.closeSolve
          · rename_i r hr
            dsimp only
            split
            · rename_i x slot _ hslot
              split
              · have h1 := h.withFlight (su := { b.su with flight := some { f with phase := .delivering x } }) hf
                  (by rintro g ⟨⟩; rfl)
                exact h1.requestWrites fun hS => (h.sectorSlots hj hr hS).1 slot hslot
              · exact h.endWith
            · exact h.endWith

theorem Board.keeps.solveStart (h : b.keeps S O L) : b.solveStart.keeps S O L := by
  unfold Board.solveStart
  split
  · rename_i serial k rest hfl hq
    extract_lets su b0
    have h0 : b0.keeps S O L := h.withSu fun hS f hf => by
      have : b.su.flight = some f := hf
      rw [hfl] at this
      cases this
    split
    · exact h0
    · rename_i r hr
      obtain ⟨j, hj, hr⟩ := Option.bind_eq_some_iff.1 hr
      extract_lets ms f b1 b2
      have hms (hS : S) : ∀ m ∈ ms, m.slot < Config.allSlots := fun m hm => by
        obtain ⟨c, hc, e⟩ := Board.mem_membersOf hm
        rw [e]; exact slotIn_some.1 ((h.sectorSlots hj hr hS).2 c hc)
      have h1 : b1.keeps S O L := by
        refine Board.keeps.modSector (h0.withSu fun hS g hg m hm => ?_) fun r => r.shrinks_map fun _ => by rfl
        cases hg
        exact slotIn_some.2 (hms hS m hm)
      have h2 : b2.keeps S O L := h1.foldl _ fun c m hm hc => hc.requestReads (fun hS => hms hS m hm) (by decide)
      exact h2.snapshotCheck
  · exact h

theorem Board.keeps.nextSolveFor (h : b.keeps S O L) (n : Nat) : (b.nextSolveFor n).keeps S O L := by
  induction n generalizing b with
  | zero => exact h
  | succ n ih =>
    unfold Board.nextSolveFor
    split
    · exact ih (h.solveOver false).solveStart
    · exact h

theorem Board.keeps.leaveSnapshot (h : b.keeps S O L) {slot : Nat} : (b.leaveSnapshot slot).keeps S O L := by
  unfold Board.leaveSnapshot
  split
  · rename_i f hf
    split
    · split
      · refine (Board.keeps.dropOps (h.withSu fun hS g hg m hm => ?_)).snapshotCheck
        cases hg
        exact h.flightSlots hf hS m (List.mem_filter.1 hm).1
      · exact h
    · exact h
  · exact h

theorem Board.keeps.snapshotRead (h : b.keeps S O L) {slot : Nat} : (b.snapshotRead slot).keeps S O L := by
  unfold Board.snapshotRead
  split
  · rename_i f op hf _
    refine (Board.keeps.dropOps (h.withSu fun hS g hg m hm => ?_)).snapshotCheck
    cases hg
    obtain ⟨x, hx, rfl⟩ := List.mem_map.1 hm
    split
    · exact h.flightSlots hf hS x hx
    · exact h.flightSlots hf hS x hx
  · exact h

/-! ### Store errors (R135, R150..R152) -/

/-- The upkeep record changed, its scrub address in the store. -/
theorem Board.keeps.withSk (h : b.keeps S O L) {sk : Upkeep}
    (ha : sk.address = b.sk.address ∨ sk.address < Config.storeCells) : ({ b with sk := sk } : Board).keeps S O L := by
  refine ⟨fun hS => ?_, h.2⟩
  obtain ⟨h1, h2⟩ := h.1 hS
  refine ⟨⟨?_, h1.2⟩, h2⟩
  obtain e | e := ha
  · show sk.address < _
    rw [e]; exact h1.1
  · exact e

theorem Board.keeps.logError (h : b.keeps S O L) {e : LogEntry} : (b.logError e).keeps S O L := h.withSk (.inl rfl)

theorem Board.keeps.disown (h : b.keeps S O L) {n slot : Nat} : (b.disown n slot).keeps S O L := by
  refine h.foldl _ fun c d _ hc => hc.modRcSlots fun _ hx => ?_
  have one (x : CaptureBuffer) (hx : slotIn x.who.slot) : slotIn (x.disown n slot).who.slot := by
    unfold CaptureBuffer.disown
    split
    · exact slotIn_none
    · exact hx
  exact ⟨one _ hx.1, one _ hx.2.1, hx.2.2⟩

theorem Board.keeps.treat (h : b.keeps S O L) {slot : Nat} {r : Role} : (b.treat slot r).keeps S O L := by
  unfold Board.treat
  split
  · exact h.damageEntry.report
  · exact h.setStatus fun _ => by exact ⟨rfl, rfl, .inl rfl⟩
  · exact (h.modSector fun r => r.shrinks_filter _).freePool.leaveSnapshot
  · exact (h.modRelay (by intro _ r hr; exact ⟨hr.1, slotIn_none⟩)).disown.freePool
  · exact h

theorem Board.keeps.treatSpoiled (h : b.keeps S O L) {op : StoreOp} : (b.treatSpoiled op).keeps S O L := by
  unfold Board.treatSpoiled
  split
  · exact h.treat
  · exact h

/-! ### The ends of the store's operations (R27, R40, R65, R99, R124, R136..R141) -/

theorem Board.keeps.fillFailed (h : b.keeps S O L) {d : DriveNo} : (b.fillFailed d).keeps S O L := by
  unfold Board.fillFailed
  split
  · exact h.voidBuffer.makeRelay
  · exact h.voidBuffer

theorem Board.keeps.fillDone (h : b.keeps S O L) {d : DriveNo} : (b.fillDone d).keeps S O L := by
  unfold Board.fillDone
  split
  · exact h
  · dsimp only
    split
    · exact h.abandonFill.modLp fun _ => by rfl
    · split
      · exact h.abandonFill.damageEntry.fillFailed.report
      · exact h.abandonFill.damageEntry.report

theorem Board.keeps.salvageCapture (h : b.keeps S O L) {j : Job} {k : Nat} {op : StoreOp} {c : Capture}
    (hj : b.job j.serial = some j) (hc : S → c.slot < Config.allSlots) :
    (b.salvageCapture j k op c).keeps S O L := by
  unfold Board.salvageCapture
  split
  · exact h.settleCheck
  · rename_i r hr
    split
    · rename_i hany
      obtain ⟨x, hx, hxp⟩ := List.any_eq_true.1 hany
      have h1 := h.replaceCapture (c := x) (c' := c) (p := fun x => !(x.slot = op.slot && !x.held)) hj hr hx
        (by rw [hxp]; rfl) hc
      dsimp only
      repeat' split
      · exact h1.treatSpoiled.settleCheck
      · exact h1.joinQueue.settleCheck
      · exact h1.settleCheck
    · exact h.settleCheck

theorem Board.keeps.prepareCapture (h : b.keeps S O L) {j : Job} {k : Nat} {op : StoreOp} {c : Capture}
    (hc : S → c.slot < Config.allSlots) : (b.prepareCapture j k op c).keeps S O L := by
  unfold Board.prepareCapture
  extract_lets b2 da
  have h2 : b2.keeps S O L := by
    simp only [b2]
    split
    · exact (h.modRelay (by intro hS r hr; exact ⟨hr.1, slotIn_some.2 (hc hS)⟩)).treatSpoiled
    · exact h
  split
  · exact h2.startWriteFill
  · exact h2

theorem Store.doneOp_mem {ts : Store} {k : OpKind} {op : StoreOp} (h : ts.doneOp k = some op) : op ∈ ts.ops :=
  List.mem_of_find?_eq_some h

theorem Board.keeps.captureDone (h : b.keeps S O L) {d : DriveNo} {i : Fin 2} : (b.captureDone d i).keeps S O L := by
  unfold Board.captureDone
  split
  · exact h
  · rename_i op hop
    have hs : S → op.slot < Config.allSlots := h.opSlot (Store.doneOp_mem hop)
    extract_lets x b1
    have h1 : b1.keeps S O L := h.dropOps.freeBuf
    split
    · split
      · exact h1.freePool
      · exact h1
    · rename_i j hj
      have hj' : b1.job j.serial = some j := by rw [(Board.job_mem hj).2]; exact hj
      split
      · exact h1.prepareCapture hs
      · exact h1.salvageCapture hj' hs
      · exact h1.salvageCapture hj' hs

theorem Board.keeps.divertSlot (h : b.keeps S O L) {d : DriveNo} {dv : Diversion}
    (hd : (b.drv d).lp.diversion = some dv) (hS : S) : dv.slot < Config.allSlots := by
  have := (h.drvSlots d hS).1
  rw [hd] at this
  exact slotIn_some.1 this

theorem Board.keeps.commitEntry (h : b.keeps S O L) {d : DriveNo} {dv : Diversion}
    (hs : S → dv.slot < Config.allSlots) : (b.commitEntry d dv).keeps S O L :=
  (((h.dropOps.modLpEnd fun _ => by rfl).createEntry hs).modLp fun _ => by rfl)

theorem Board.keeps.commitReset (h : b.keeps S O L) {d : DriveNo} : (b.commitReset d).keeps S O L := by
  unfold Board.commitReset
  split
  · rename_i hd
    exact (h.commitEntry (h.divertSlot hd)).treatSpoiled
  · exact h

theorem Board.keeps.commitDone (h : b.keeps S O L) {d : DriveNo} : (b.commitDone d).keeps S O L := by
  unfold Board.commitDone
  split
  · rename_i hd
    have h1 := h.commitEntry (d := d) (h.divertSlot hd)
    dsimp only
    split
    · exact (h1.handOn.treatSpoiled.examine.modLp fun _ => by rfl).liveEnded
    · exact h1.handOn.treatSpoiled.examine
  · exact h

theorem Board.keeps.deliveryDone (h : b.keeps S O L) : b.deliveryDone.keeps S O L := by
  unfold Board.deliveryDone
  split
  · split
    · exact h
    · extract_lets b1
      have h1 : b1.keeps S O L := h.dropOps.examine
      split
      · exact h1.closeSolve
      · split
        · exact h1.closeSolve
        · rename_i j hj
          split
          · exact h1.closeSolve
          · rename_i r hr
            exact (h1.deliver fun hS => (h1.sectorSlots hj hr hS).1).treatSpoiled.examine.closeSolve
  · exact h

theorem Board.keeps.writeFillDone (h : b.keeps S O L) {d : DriveNo} : (b.writeFillDone d).keeps S O L := by
  unfold Board.writeFillDone
  split
  · exact h
  · split
    · exact h.dropOps.modDa
    · exact h.dropOps

theorem Board.keeps.copyDone (h : b.keeps S O L) {slot : Nat} : (b.copyDone slot).keeps S O L := by
  unfold Board.copyDone
  split
  · exact h
  · split
    · exact h.dropOps.freePool.treatSpoiled
    · exact h

theorem Board.keeps.fetchSectorDone (h : b.keeps S O L) : b.fetchSectorDone.keeps S O L := by
  unfold Board.fetchSectorDone
  split
  · exact h
  · split
    · dsimp only
      repeat' split
      · exact h.dropOps.deny
      · exact h.dropOps.deny
      · exact h.dropOps.reply
      · exact (h.dropOps.modEntry fun _ => by exact ⟨rfl, rfl⟩).reply
    · exact h

theorem Board.keeps.fetchCaptureDone (h : b.keeps S O L) : b.fetchCaptureDone.keeps S O L := by
  unfold Board.fetchCaptureDone
  split
  · exact h
  · split
    · dsimp only
      split
      · exact h.dropOps.deny
      · exact h.dropOps.reply
    · exact h

theorem Board.keeps.storeSectorDone (h : b.keeps S O L) : b.storeSectorDone.keeps S O L := by
  unfold Board.storeSectorDone
  split
  · exact h
  · rename_i op hop
    have hs : S → op.slot < Config.allSlots := h.opSlot (List.mem_of_find?_eq_some hop)
    split
    · dsimp only
      split
      · exact h.dropOps.letGo.deny
      · exact (h.dropOps.createEntry hs).reply.handOn.treatSpoiled
    · exact h

theorem Board.keeps.patchDone (h : b.keeps S O L) : b.patchDone.keeps S O L := by
  unfold Board.patchDone
  split
  · exact h
  · split
    · dsimp only
      repeat' split
      · exact h.dropOps.deny
      · exact h.dropOps.deny
      · exact h.dropOps.deny
      · exact h.dropOps.deny
      · exact (h.dropOps.modEntry fun _ => by exact ⟨rfl, rfl⟩).entryChanged.reply.handOn.treatSpoiled
    · exact h

/-! ### Store accesses (R129..R131, R139, R141) -/

theorem patchWrites_inStore {slot : Nat} (hs : slot < Config.allSlots) (b : Board) (a : Addr) (n : Nat)
    (img : List Word) (got : List (BitVec 32)) : ∀ x ∈ b.patchWrites slot a n img got, x.inStore := by
  intro x hx
  unfold Board.patchWrites at hx
  obtain hx | hx := List.mem_append.1 hx
  · obtain ⟨c, hc, rfl⟩ := List.mem_map.1 hx
    have := List.mem_range.1 (List.mem_filter.1 hc).1
    exact cellAddress_lt hs (this.trans (by decide))
  · split at hx
    · exact zipIdx_writes_inStore (k := 66) _ hs (by simp) x hx
    · cases hx

theorem Board.keeps.afterReads (h : b.keeps S O L) {n : Nat} {op : StoreOp} : (b.afterReads n op).keeps S O L := by
  unfold Board.afterReads
  split
  · split
    · exact h.modOpAt fun _ op hs _ => ⟨hs, patchWrites_inStore hs _ _ _ _ _⟩
    · exact h
  · split
    · exact h.modOpAt fun _ op hs _ => ⟨hs, slotWrites_inStore hs _ _⟩
    · exact h
  · exact h

theorem Board.keeps.readerDouble (h : b.keeps S O L) {op : StoreOp} : (b.readerDouble op).keeps S O L := by
  unfold Board.readerDouble
  split
  · split
    · exact h.fillFailed
    · exact h
  · split
    · exact h.dropOps.fatalWrite
    · exact h.dropOps
  · extract_lets ts b1
    have h1 : b1.keeps S O L := h.withOps fun hS x hx => by
      obtain ⟨y, hy, rfl⟩ := List.mem_map.1 hx
      split
      · exact ⟨h.opSlot (op := y) hy hS, fun z hz => by cases hz⟩
      · exact h.opInStore hy hS
    repeat' split
    · exact h1.treat
    · exact h1
    · exact h1
  · exact h.leaveSnapshot
  all_goals exact h

theorem Board.keeps.readAccess (h : b.keeps S O L) {n : Nat} {op : StoreOp} {slot cell : Nat} {c : CellRead} :
    (b.readAccess n op slot cell c).keeps S O L := by
  unfold Board.readAccess
  extract_lets took next
  have took_keeps (w : BitVec 32) (syn : Nat) (double : Bool) : (took b w syn double).keeps S O L :=
    h.modOpAt fun _ op hs ht => ⟨hs, fun x hx => ht x (List.mem_of_mem_drop hx)⟩
  have next_keeps (c : Board) (hc : c.keeps S O L) : (next c).keeps S O L := by
    simp only [next]
    split
    · exact hc.afterReads
    · exact hc
  split
  · exact next_keeps _ (took_keeps _ _ _)
  · exact (next_keeps _ (took_keeps _ _ _)).logError
  · exact (took_keeps _ _ _).logError.note.treat.readerDouble

theorem Board.keeps.writeRecord (h : b.keeps S O L) {slot : Nat} :
    ({ b with ts := { b.ts with writeRec := insertNat slot b.ts.writeRec } } : Board).keeps S O L := by
  refine ⟨h.1, fun hO => ?_, h.2.2⟩
  obtain ⟨h1, h2, h3, h4⟩ := h.2.1 hO
  exact ⟨h1, h2, h3, insertNat_ordered h4⟩

theorem Board.keeps.grantOp (h : b.keeps S O L) {b' : Board} {m m' : Dram} {n : Nat} {op : StoreOp} {w : CellBits}
    (hg : grantOp b m n op w = .ok (b', m')) : b'.keeps S O L := by
  unfold Machine.grantOp at hg
  split at hg
  · cases hg; exact h.dropOps.deny
  · split at hg
    · cases hg; exact h
    · dsimp only at hg
      split at hg
      · cases hg; exact h.readAccess
      · cases hg
    · dsimp only at hg
      have h1 (cell : Nat) : (b.modOpAt n fun op =>
          { op with todo := op.todo.drop 1, wrote := op.wrote ++ [cell], lastAt := b.now }).keeps S O L :=
        h.modOpAt fun _ op hs ht => ⟨hs, fun x hx => ht x (List.mem_of_mem_drop hx)⟩
      split at hg
      · cases hg
        split
        · exact (h1 _).writeRecord
        · exact h1 _
      · cases hg

theorem Board.keeps.withInit (h : b.keeps S O L) (i : Option Nat) :
    ({ b with ts := { b.ts with init := i } } : Board).keeps S O L := h

theorem Board.keeps.storeGrant (h : b.keeps S O L) {b' : Board} {m m' : Dram} {pick : Nat} {w : CellBits}
    (hg : storeGrant b m pick w = .ok (b', m')) : b'.keeps S O L := by
  unfold Machine.storeGrant at hg
  split at hg
  · cases hg; exact h
  · split at hg
    · unfold grantAccess at hg
      split at hg
      · exact h.grantOp hg
      · cases hg; exact h.withInit _
    · cases hg; exact h

theorem Board.keeps.drainOp (h : b.keeps S O L) (kind : OpKind) (n : Nat) (m : Dram) :
    (drainOp kind n b m).1.keeps S O L := by
  induction n generalizing b m with
  | zero => exact h
  | succ n ih =>
    unfold Machine.drainOp
    split
    · split
      · rename_i hg; exact ih (h.grantOp hg) _
      · exact h
    · exact h

theorem Board.keeps.finishWrites (h : b.keeps S O L) {m : Dram} : (finishWrites b m).1.keeps S O L := by
  unfold Machine.finishWrites
  generalize b.ts.ops.map (·.kind) = ks
  induction ks generalizing b m with
  | nil => exact h
  | cons k ks ih =>
    refine ih (b := (finishWrite (b, m) k).1) (m := (finishWrite (b, m) k).2) ?_
    unfold finishWrite
    split
    · exact (h.drainOp _ _ _).commitReset
    · exact (h.drainOp _ _ _).copyDone
    · exact h

/-! ### Store upkeep (R143, R146..R150) -/

theorem Board.keeps.storeReady (h : b.keeps S O L) : b.storeReady.keeps S O L := by
  unfold Board.storeReady
  split
  · exact h
  · exact h

theorem Board.keeps.refreshTick (h : b.keeps S O L) : b.refreshTick.keeps S O L := by
  unfold Board.refreshTick
  split
  · exact h.withSk (.inl rfl)
  · exact h

theorem Board.keeps.scrubTick (h : b.keeps S O L) : b.scrubTick.keeps S O L := by
  unfold Board.scrubTick
  dsimp only
  repeat' split
  · exact h.withSk (.inl rfl)
  · exact h.withSk (.inl rfl)
  · exact h

theorem Board.keeps.refreshBurst (h : b.keeps S O L) : b.refreshBurst.keeps S O L := by
  unfold Board.refreshBurst
  split
  · exact h.withSk (.inl rfl)
  · exact h

theorem Board.keeps.scrubNextCell (h : b.keeps S O L) : b.scrubNextCell.keeps S O L := by
  refine h.withSk (.inr ?_)
  dsimp only
  split
  · assumption
  · decide

theorem Board.keeps.scrubDouble (h : b.keeps S O L) {slot cell syn : Nat} :
    (b.scrubDouble slot cell syn).keeps S O L := by
  unfold Board.scrubDouble
  extract_lets role effect e b1 mark b2
  have h1 : b1.keeps S O L := h.logError.note
  refine Board.keeps.treat (h1.withOps fun hS x hx => ?_)
  obtain ⟨y, hy, rfl⟩ := List.mem_map.1 hx
  exact h1.opInStore (op := y) hy hS

theorem Board.keeps.scrubCell (h : b.keeps S O L) {b' : Board} {m m' : Dram} {w : CellBits}
    (hg : scrubCell b m w = .ok (b', m')) : b'.keeps S O L := by
  unfold Machine.scrubCell at hg
  dsimp only at hg
  split at hg
  · cases hg; exact h
  · split at hg
    · cases hg
    · split at hg
      · cases hg; exact h.scrubNextCell
      · cases hg; exact h.logError.scrubNextCell
      · cases hg; exact h.scrubDouble.scrubNextCell

end

end Sys2Proof.Machine
end

section
/-! PROOFS. The events of the ports and the requests keep the tables' invariants. -/

namespace Sys2Proof.Machine

section
variable {b : Board} {S O L : Prop}

/-! ### The arbiter's own events (R74, R76, R83) -/

theorem Board.keeps.takeOrWait (h : b.keeps S O L) {d : DriveNo} : (b.takeOrWait d).keeps S O L :=
  h.tryTake.enterTaking

theorem Board.keeps.graceExpiry (h : b.keeps S O L) {d : DriveNo} : (b.graceExpiry d).keeps S O L := by
  unfold Board.graceExpiry
  dsimp only
  repeat' split
  · exact h.tryTake
  · exact h
  · exact h

theorem Board.keeps.starveExpiry (h : b.keeps S O L) {id : Nat} : (b.starveExpiry id).keeps S O L := by
  unfold Board.starveExpiry Board.press
  repeat' split
  · exact (h.modJob fun _ => by exact Job.same_rfl _).takeOrWait
  · exact h
  · exact h

theorem Board.keeps.noteHold (h : b.keeps S O L) {d : DriveNo} {what : Stopped} :
    (b.noteHold d what).keeps S O L := h.note.modDa

theorem Board.keeps.holdExpiry (h : b.keeps S O L) {d : DriveNo} : (b.holdExpiry d).keeps S O L := by
  unfold Board.holdExpiry
  dsimp only
  repeat' split
  · exact h.noteHold.modDa
  · exact h.noteHold.modDa
  · exact h.noteHold.passStop
  · exact h.noteHold.stopChannel.passStop
  · exact h.noteHold.stopChannel.passStop
  · exact h.noteHold
  all_goals exact h

/-! ### The cells of a slot (R50, R58..R60) -/

theorem Channel.syncFound_sameSlots (rc : Channel) (frames : List CellFrame) : rc.sameSlots (rc.syncFound frames) := by
  unfold Channel.syncFound
  split
  · exact rc.sameSlots_refl
  · exact rc.sameSlots_refl

theorem Channel.huntLimit_sameSlots (rc : Channel) (frames : List CellFrame) : rc.sameSlots (rc.huntLimit frames) := by
  unfold Channel.huntLimit
  split
  · exact rc.sameSlots_refl
  · exact rc.sameSlots_refl

theorem Channel.receive_sameSlots (rc : Channel) (ws : List (Word × Nat)) : rc.sameSlots (rc.receive ws) := by
  unfold Channel.receive
  split
  · exact rc.sameSlots_refl
  · rename_i i _
    fin_cases i
    · exact rc.sameSlots_refl
    · exact rc.sameSlots_refl

theorem Channel.headerRead_sameSlots (rc : Channel) (p : Profile) (frames : List CellFrame) :
    rc.sameSlots (rc.headerRead p frames) := by
  unfold Channel.headerRead
  repeat' split
  · exact rc.sameSlots_refl
  · exact rc.receive_sameSlots (readWords rc.slotShift 2 rc.lastFrame frames)
  · exact rc.sameSlots_refl

theorem Channel.imageRead_sameSlots (rc : Channel) (now : Time) (frames : List CellFrame) :
    rc.sameSlots (rc.imageRead now frames) := by
  unfold Channel.imageRead
  split
  · exact rc.receive_sameSlots (readWords rc.slotShift 129 rc.lastFrame frames)
  · exact rc.sameSlots_refl

theorem Board.keeps.takeResync (h : b.keeps S O L) {d : DriveNo} {k : Nat} : (b.takeResync d k).keeps S O L := by
  unfold Board.takeResync
  dsimp only
  split
  · exact h.modRt.note
  · exact h

theorem Board.keeps.imageComplete (h : b.keeps S O L) {d : DriveNo} {frames : List CellFrame} :
    (b.imageComplete d frames).keeps S O L := by
  have h1 : (b.modRc d fun rc => rc.imageRead b.now frames).keeps S O L :=
    h.modRc fun rc => rc.imageRead_sameSlots _ _
  unfold Board.imageComplete
  dsimp only
  repeat' split
  · exact h1.takeResync
  · exact h1
  · exact h1

/-! ### The controller port (chapter 2) -/

theorem Board.keeps.preempt (h : b.keeps S O L) {d : DriveNo} : (b.preempt d).keeps S O L := by
  unfold Board.preempt
  dsimp only
  repeat' split
  · exact h.modDa
  · exact h.modDa
  all_goals exact h

theorem Board.keeps.latch (h : b.keeps S O L) {d : DriveNo} {c : CtrlCmd} : (b.latch d c).keeps S O L :=
  (h.modLp fun _ => by rfl).modDa.preempt

theorem Board.keeps.arrive (h : b.keeps S O L) {d : DriveNo} {c : CtrlCmd} : (b.arrive d c).keeps S O L := by
  unfold Board.arrive
  dsimp only
  repeat' split
  · exact h
  · exact h.modLp fun _ => by rfl
  · exact h.modLp fun _ => by rfl
  · exact (h.modLp fun _ => by rfl).startCommand
  all_goals exact (h.modLp fun _ => by rfl).latch

theorem Board.keeps.gateDrop (h : b.keeps S O L) {d : DriveNo} : (b.gateDrop d).keeps S O L := by
  unfold Board.gateDrop
  dsimp only
  split
  · split
    · exact (h.modLp fun _ => by rfl).releaseEntry.examine.afterGate.examine
    · exact (h.modLp fun _ => by rfl).afterGate.examine
  · exact h

theorem Board.keeps.abandonDiversion (h : b.keeps S O L) {d : DriveNo} : (b.abandonDiversion d).keeps S O L := by
  unfold Board.abandonDiversion
  split
  · exact h
  · dsimp only
    repeat' split
    · exact h
    · exact h.modLpEnd fun _ => by rfl
    · exact (h.modLpEnd fun _ => by rfl).letGo.examine

theorem Board.keeps.gateRaise (h : b.keeps S O L) {d : DriveNo} : (b.gateRaise d).keeps S O L := by
  unfold Board.gateRaise
  dsimp only
  repeat' split
  · exact h
  · exact h.modPins.modLp fun _ => by rfl
  · exact ((h.modPins.modLp fun _ => by rfl).modLp fun _ => by rfl).releaseEntry
  · exact h.modPins.modLp fun _ => by rfl
  · refine h.modPins.modLpDiversion fun hS => ?_
    have hd := ((h.modPins (d := d) (f := fun p => { p with ctrlGate := true })).drvSlots d hS).1
    rw [Option.map_map]
    refine (congrArg slotIn (congrArg₂ Option.map (funext fun dv => ?_) rfl)).mp hd
    simp only [Function.comp]
    split <;> rfl

theorem Board.keeps.gateFall (h : b.keeps S O L) {d : DriveNo} : (b.gateFall d).keeps S O L := by
  unfold Board.gateFall
  split
  · exact h.modPins.gateDrop.abandonDiversion
  · exact h

theorem Board.keeps.absorb (h : b.keeps S O L) {d : DriveNo} {data : List Word} {check : Word} :
    (b.absorb d data check).keeps S O L := by
  unfold Board.absorb
  split
  · exact h
  · rename_i dv hd
    have hs := h.divertSlot hd
    extract_lets img sum b1
    have h1 : b1.keeps S O L := by
      simp only [b1]
      split
      · exact h
      · exact h.note
    split
    · refine Board.keeps.requestWrites (h1.modLpDiversion fun hS => ?_) hs
      exact slotIn_some.2 (hs hS)
    · exact h

theorem Board.keeps.emissionOver (h : b.keeps S O L) {d : DriveNo} : (b.emissionOver d).keeps S O L := by
  unfold Board.emissionOver
  dsimp only
  repeat' split
  · exact (h.modLp fun _ => by rfl).voidBuffer
  · exact h.modLp fun _ => by rfl
  · exact h

theorem Board.keeps.slotTimeout (h : b.keeps S O L) {d : DriveNo} : (b.slotTimeout d).keeps S O L := by
  unfold Board.slotTimeout
  dsimp only
  split
  · split
    · exact (h.withdraw.modLp fun _ => by rfl).liveEnded
    · exact (h.modLp fun _ => by rfl).liveEnded
    · exact (h.modLp fun _ => by rfl).liveEnded
  · exact h

theorem Board.keeps.breakOff (h : b.keeps S O L) {d : DriveNo} : (b.breakOff d).keeps S O L := by
  unfold Board.breakOff
  dsimp only
  split
  · exact h.stopChannel.gateDrop.abandonDiversion.emissionOver.modLp fun _ => by rfl
  · exact h.gateDrop.abandonDiversion.emissionOver.modLp fun _ => by rfl
  · exact h.gateDrop.abandonDiversion.emissionOver.modLp fun _ => by rfl

theorem Board.keeps.clearBuffer (h : b.keeps S O L) {d : DriveNo} : (b.clearBuffer d).keeps S O L := by
  unfold Board.clearBuffer
  split
  · rename_i dv hd
    have hs := h.divertSlot hd
    exact h.modLpDiversion fun hS => slotIn_some.2 (hs hS)
  · exact h.voidBuffer

theorem Board.keeps.busClearDrive (h : b.keeps S O L) {d : DriveNo} : (b.busClearDrive d).keeps S O L := by
  unfold Board.busClearDrive
  extract_lets phase b1 b2
  have h1 : b1.keeps S O L := by
    simp only [b1]
    split
    · exact h.breakOff
    · exact h
  have h2 : b2.keeps S O L := h1.clearBuffer.modLp fun _ => by rfl
  cases phase
  · exact h2
  · exact h2.clearHold
  · exact h2
  · exact h2.liveEnded
  · exact h2.liveEnded

theorem Board.keeps.busClear (h : b.keeps S O L) : b.busClear.keeps S O L :=
  h.foldl _ fun _ _ _ hc => hc.busClearDrive

/-! ### What a drive reports (R17, R18, R68, R71, R77, R84..R87) -/

theorem Board.keeps.headsAt (h : b.keeps S O L) {d : DriveNo} {c : Fin 512} : (b.headsAt d c).keeps S O L := h.modDa

theorem Board.keeps.headsLost (h : b.keeps S O L) {d : DriveNo} : (b.headsLost d).keeps S O L := h.modDa

theorem Board.keeps.liveSeekEnd (h : b.keeps S O L) {d : DriveNo} {ok : Bool} : (b.liveSeekEnd d ok).keeps S O L := by
  unfold Board.liveSeekEnd
  dsimp only
  cases ok
  · exact (h.headsLost.modLp fun _ => by rfl).liveEnded
  · exact (h.headsAt.modLp fun _ => by rfl).liveEnded

theorem Board.keeps.thenStep (h : b.keeps S O L) {d : DriveNo} {next : Board → Board}
    (hn : (next b).keeps S O L) : (b.thenStep d next).keeps S O L := by
  unfold Board.thenStep
  split
  · exact h.abandonPosition
  · exact hn

theorem Board.keeps.sendRecal (h : b.keeps S O L) {d : DriveNo} {w : Work} : (b.sendRecal d w).keeps S O L :=
  h.sendMove.modDa

theorem Board.keeps.seekFailure (h : b.keeps S O L) {d : DriveNo} {offsetFault : Bool} :
    (b.seekFailure d offsetFault).keeps S O L := by
  unfold Board.seekFailure
  extract_lets b0 da
  have h0 : b0.keeps S O L := by
    simp only [b0]
    split
    · exact h
    · exact h.headsLost
  split
  · exact h0.abandonPosition
  split
  · exact h0.abandonPosition
  extract_lets b1
  have h1 : b1.keeps S O L := h0.modJob fun _ => by exact Job.same_rfl _
  repeat' split
  · exact h1.abandonPosition
  · exact h1.modDa.finish.decide
  · exact h1.modDa.finish.decide
  · exact h1.modDa.sendRecal
  · exact h1.abandonPosition

theorem Board.keeps.restoreMoveFailed (h : b.keeps S O L) {d : DriveNo} : (b.restoreMoveFailed d).keeps S O L := by
  unfold Board.restoreMoveFailed
  dsimp only
  split
  · exact h.headsLost.sendRecal
  · exact h.restoreFail

theorem Board.keeps.offsetSettled (h : b.keeps S O L) {d : DriveNo} : (b.offsetSettled d).keeps S O L := by
  have h1 : (b.modRc d fun rc => { rc with settling := false }).keeps S O L := h.modRc fun _ => by exact ⟨rfl, rfl, rfl⟩
  unfold Board.offsetSettled
  dsimp only
  split
  · exact h1.thenStep h1.posRecal
  · exact h1.thenStep h1.posComplete
  · exact h1.restoreSeek
  all_goals exact h

theorem Board.keeps.offsetFault (h : b.keeps S O L) {d : DriveNo} : (b.offsetFault d).keeps S O L := by
  unfold Board.offsetFault
  split
  · exact h.seekFailure
  · exact h.seekFailure
  · exact h.restoreSeek
  all_goals exact h

theorem Board.keeps.onCylinder (h : b.keeps S O L) {d : DriveNo} : (b.onCylinder d).keeps S O L := by
  unfold Board.onCylinder
  extract_lets x b1
  have h1 : b1.keeps S O L := h.modPins
  have h2 (c : Fin 512) : (b1.headsAt d c).keeps S O L := h1.headsAt
  split
  · exact h1.liveSeekEnd
  · split
    · exact (h2 _).thenStep (h2 _).posSeek
    · exact (h2 _).thenStep (h2 _).posSeek
    · exact (h2 _).thenStep (h2 _).posHead
    · exact (h2 _).restoreHead
    · exact (h2 _).modDa.sendRestoreSeek
    · exact h1.modDa.restoreSteps
    · split
      · exact h1.offsetSettled
      · exact h1
    · split
      · exact h1.offsetSettled
      · exact h1
    · split
      · exact h1.offsetSettled
      · exact h1
    · exact h1

theorem Board.keeps.seekError (h : b.keeps S O L) {d : DriveNo} : (b.seekError d).keeps S O L := by
  unfold Board.seekError
  extract_lets x b1
  have h1 : b1.keeps S O L := h.modPins
  split
  · exact h1.liveSeekEnd
  · split
    · exact h1.seekFailure
    · exact h1.seekFailure
    · exact h1.seekFailure
    · exact h1.restoreMoveFailed
    · exact h1.restoreMoveFailed
    · exact h1.modDa.restoreSteps
    · split
      · exact h1.offsetFault
      · exact h1
    · split
      · exact h1.offsetFault
      · exact h1
    · split
      · exact h1.offsetFault
      · exact h1
    · exact h1

theorem Board.keeps.settleTimer (h : b.keeps S O L) {d : DriveNo} {onCyl : Bool} :
    (b.settleTimer d onCyl).keeps S O L := by
  unfold Board.settleTimer
  dsimp only
  repeat' split
  · exact h.modPins.offsetSettled
  · exact h.modPins
  · exact h

theorem Board.keeps.faultTimer (h : b.keeps S O L) {d : DriveNo} : (b.faultTimer d).keeps S O L := by
  unfold Board.faultTimer
  dsimp only
  split
  · exact h.offsetFault
  · exact h

theorem Board.keeps.engineSeekTimer (h : b.keeps S O L) {d : DriveNo} : (b.engineSeekTimer d).keeps S O L := by
  unfold Board.engineSeekTimer
  dsimp only
  split
  iterate 3
    · split
      · exact h.seekFailure
      · exact h
  all_goals exact h

theorem Board.keeps.restoreTimer (h : b.keeps S O L) {d : DriveNo} : (b.restoreTimer d).keeps S O L := by
  unfold Board.restoreTimer
  dsimp only
  split
  iterate 2
    · split
      · exact h.restoreMoveFailed
      · exact h
  · split
    · exact h.modDa.restoreSteps
    · exact h
  all_goals exact h

theorem Board.keeps.liveOffline (h : b.keeps S O L) {d : DriveNo} : (b.liveOffline d).keeps S O L := by
  unfold Board.liveOffline
  dsimp only
  split
  · exact h.breakOff.modLp fun _ => by rfl
  · exact h.modLp fun _ => by rfl

theorem Board.keeps.channelOffline (h : b.keeps S O L) {d : DriveNo} : (b.channelOffline d).keeps S O L :=
  (h.stopChannel.modRc fun _ => by exact ⟨rfl, rfl, rfl⟩)

theorem Board.keeps.engineOffline (h : b.keeps S O L) {d : DriveNo} : (b.engineOffline d).keeps S O L := by
  unfold Board.engineOffline
  dsimp only
  repeat' split
  · exact h.enginePosEnd
  · exact h
  · exact h.endPass
  all_goals exact h

theorem Board.keeps.goOffline (h : b.keeps S O L) {d : DriveNo} : (b.goOffline d).keeps S O L :=
  h.applyPending.modDa

theorem Board.keeps.readyDrop (h : b.keeps S O L) {d : DriveNo} : (b.readyDrop d).keeps S O L := by
  unfold Board.readyDrop
  dsimp only
  split
  · exact h
  · exact h.modPins.note.liveOffline.channelOffline.engineOffline.goOffline

theorem Board.keeps.readyRise (h : b.keeps S O L) {d : DriveNo} : (b.readyRise d).keeps S O L := by
  unfold Board.readyRise
  dsimp only
  split
  · exact h
  · exact h.modPins.modDa.note.exam _

theorem Board.keeps.driveLost (h : b.keeps S O L) {d : DriveNo} : (b.driveLost d).keeps S O L := by
  unfold Board.driveLost
  extract_lets da due
  split
  · exact h.modDa.foldl _ fun _ _ _ hc => hc.finish
  · exact h

/-! ### Pulses (R4, R19, R26, R28, R33..R37, R42..R49, R79, R106) -/

theorem Board.keeps.correctIndex (h : b.keeps S O L) {d : DriveNo} : (b.correctIndex d).keeps S O L := by
  unfold Board.correctIndex
  dsimp only
  split
  · exact h.modRt.note
  · exact h.modRt

theorem Board.keeps.indexLocked (h : b.keeps S O L) {d : DriveNo} : (b.indexLocked d).keeps S O L := by
  unfold Board.indexLocked
  dsimp only
  split
  · exact h.correctIndex.modRt.modRt.note.enterTaking
  · exact h.correctIndex.modRt.modRt

theorem Board.keeps.indexPulse (h : b.keeps S O L) {d : DriveNo} : (b.indexPulse d).keeps S O L := by
  unfold Board.indexPulse Board.indexFreeRun
  dsimp only
  split
  · exact h.modRt
  · exact h.indexLocked
  · exact h.correctIndex.modRt.note

theorem Board.keeps.watchdog (h : b.keeps S O L) {d : DriveNo} : (b.watchdog d).keeps S O L := by
  unfold Board.watchdog Board.watchdogExpire
  dsimp only
  repeat' split
  · exact h.modRt.note
  · exact h.modRt.note.note
  · exact h
  · exact h

theorem Board.keeps.endRecord (h : b.keeps S O L) {d : DriveNo} : (b.endRecord d).keeps S O L := h.modLp fun _ => by rfl

theorem Board.keeps.closeSlot (h : b.keeps S O L) {d : DriveNo} : (b.closeSlot d).1.keeps S O L := by
  unfold Board.closeSlot
  dsimp only
  repeat' split
  · exact h
  · exact h
  · exact h.abandonDiversion.endRecord
  · exact h.emissionOver.endRecord
  · exact h.gateDrop.endRecord
  · exact h.gateDrop.endRecord
  all_goals exact h.endRecord

theorem Board.keeps.transfer (h : b.keeps S O L) {d : DriveNo} {c : Course} : (b.transfer d c).keeps S O L :=
  h.modLp fun _ => by rfl

theorem Board.keeps.refuseWrite (h : b.keeps S O L) {d : DriveNo} : (b.refuseWrite d).keeps S O L :=
  (h.transfer.modLp fun _ => by rfl)

theorem Board.keeps.diversionOff (h : b.keeps S O L) {d : DriveNo} {a : Addr} : (b.diversionOff d a).keeps S O L := by
  unfold Board.diversionOff
  split
  · exact h.refuseWrite
  · exact h.transfer

theorem Board.keeps.startDivert (h : b.keeps S O L) {d : DriveNo} {a : Addr} {slot : Nat}
    (hs : S → slot < Config.allSlots) : (b.startDivert d a slot).keeps S O L :=
  h.abandonFill.transfer.modLpDiversion fun hS => slotIn_some.2 (hs hS)

theorem Board.keeps.openWrite (h : b.keeps S O L) {d : DriveNo} : (b.openWrite d).keeps S O L := by
  unfold Board.openWrite
  dsimp only
  repeat' split
  · exact h.refuseWrite
  · exact h.transfer
  · exact h.transfer
  · exact h.transfer
  · rename_i he
    exact h.startDivert (h.entrySlot he)
  · rename_i hslot
    exact h.setKeep.startDivert fun _ => Store.freeKeepSlot_lt hslot
  · exact h.diversionOff
  · exact h.diversionOff

theorem Board.keeps.openRead (h : b.keeps S O L) {d : DriveNo} : (b.openRead d).keeps S O L := by
  unfold Board.openRead
  dsimp only
  split
  · split
    · exact h.transfer.modLp fun _ => by rfl
    · exact h.voidBuffer.makeRelay.transfer.openLive
  · exact h.transfer.openLive
  all_goals exact h.transfer

theorem Board.keeps.openSlot (h : b.keeps S O L) {d : DriveNo} {k : Nat} : (b.openSlot d k).keeps S O L := by
  unfold Board.openSlot
  dsimp only
  repeat' split
  · exact h.openWrite
  · exact h.openRead
  all_goals exact h

theorem Board.keeps.missSlot (h : b.keeps S O L) {d : DriveNo} : (b.missSlot d).keeps S O L := h.dropWriteFill.modDa

theorem Board.keeps.openWriteSlot (h : b.keeps S O L) {d : DriveNo} {k : Nat} : (b.openWriteSlot d k).keeps S O L := by
  unfold Board.openWriteSlot
  dsimp only
  split
  · rename_i fromImage img r _ _
    have h1 := h.modDa (d := d) (f := fun da => { da with writing := some k, writeImage := img, wbuf := .empty })
      |>.modJobAt (n := r.serial)
        (f := fun j => { j.modRelay k fun r => { r with written := fromImage } with written := true })
        fun j _ _ => (Job.modRelay_keeps (g := fun r => { r with written := fromImage }) fun _ _ hr => hr).trans
          (Job.keeps_of_same (Job.sameName.refl _) rfl rfl)
    repeat' split
    · exact h1.startWriteFill
    · exact h1
    · exact h.missSlot
  · exact h.missSlot

theorem Board.keeps.openPassSlot (h : b.keeps S O L) {d : DriveNo} {k : Nat} : (b.openPassSlot d k).keeps S O L := by
  unfold Board.openPassSlot
  dsimp only
  split
  · exact h.modDa.openWriteSlot
  · exact h.modDa.openPass
  · exact h.modDa

theorem Board.keeps.sectorPulse (h : b.keeps S O L) {d : DriveNo} {wp : Bool} : (b.sectorPulse d wp).keeps S O L := by
  unfold Board.sectorPulse
  extract_lets x b1
  have h2 : (b1.closeSlot d).1.keeps S O L := (h.modPins.reportSlot).closeSlot
  revert h2
  rcases b1.closeSlot d with ⟨b2, ended⟩
  intro h2
  dsimp -zeta only
  extract_lets b3 k b4 b5
  have h3 : b3.keeps S O L := Board.keeps.modRt (Board.keeps.modDa h2)
  have h4 : b4.keeps S O L := by
    simp only [b4]
    split
    · exact h3.openPassSlot
    · exact h3
  have h5 : b5.keeps S O L := by
    simp only [b5]
    split
    · exact h4.liveEnded
    · exact h4.openSlot
  repeat' split
  · exact h5.passStop
  · exact h5.passEnd
  · exact h5

theorem Board.keeps.sectorWritten (h : b.keeps S O L) {d : DriveNo} : (b.sectorWritten d).keeps S O L := by
  unfold Board.sectorWritten
  dsimp only
  repeat' split
  · exact h.modDa.passStop
  · exact h.modDa
  · exact h

/-! ### Requests (chapters 6, 8, 11) -/

theorem Board.keeps.fileJob (h : b.keeps S O L) {p : List Byte} : (b.fileJob p).keeps S O L := by
  unfold Board.fileJob
  repeat' split
  · exact h.filing _
  · exact h.fileNow
  · exact h.fileNow

theorem Board.keeps.ok (h : b.keeps S O L) {l : List Byte} : (b.ok l).keeps S O L := h

theorem Board.keeps.cancelJob (h : b.keeps S O L) {p : List Byte} : (b.cancelJob p).keeps S O L := by
  unfold Board.cancelJob
  split
  · exact h.ok.finish
  · exact h.deny

theorem Board.keeps.dropSuspect (h : b.keeps S O L) {p : List Byte} : (b.dropSuspect p).keeps S O L := by
  unfold Board.dropSuspect
  repeat' split
  · exact h.deny
  · exact (h.filterSuspects _).ok
  · exact h.deny

theorem Board.keeps.fetchSector (h : b.keeps S O L) {p : List Byte} : (b.fetchSector p).keeps S O L := by
  unfold Board.fetchSector
  repeat' split
  · exact h.deny
  · exact h.deny
  · exact h.deny
  · rename_i he
    exact h.requestReads (h.entrySlot he) (by decide)

theorem Board.keeps.captureAt (h : b.keeps S O L) {j : Job} {k i : Nat} {c : Capture} (hj : j ∈ b.re.jobs)
    (hc : j.captureAt k i = some c) (hS : S) : c.slot < Config.allSlots := by
  obtain ⟨hsec, hrel⟩ := h.jobSlots hj hS
  unfold Job.captureAt at hc
  split at hc
  · obtain ⟨r, hr, hcr⟩ := Option.bind_eq_some_iff.1 hc
    exact slotIn_some.1 ((hsec r (List.mem_of_find?_eq_some hr)).2 c
      (List.mem_filter.1 (List.mem_of_getElem? hcr)).1)
  · split at hc
    · obtain ⟨r, hr, hi⟩ := Option.bind_eq_some_iff.1 hc
      have := (hrel r (List.mem_of_find?_eq_some hr)).2
      rw [hi] at this
      exact slotIn_some.1 this
    · cases hc
  · cases hc

theorem Board.keeps.fetchCapture (h : b.keeps S O L) {p : List Byte} : (b.fetchCapture p).keeps S O L := by
  unfold Board.fetchCapture
  repeat' split
  · exact h.deny
  · exact h.deny
  · exact h.deny
  · rename_i hj _ _ hc
    exact h.requestReads (h.captureAt (List.mem_of_find?_eq_some hj) hc) (by decide)

theorem Board.keeps.storeSector (h : b.keeps S O L) {p : List Byte} : (b.storeSector p).keeps S O L := by
  unfold Board.storeSector
  dsimp only
  repeat' split
  · exact h.deny
  · exact h.deny
  · exact h.deny
  · exact h.deny
  · exact h.deny
  · rename_i hslot
    exact h.setKeep.requestWrites fun _ => Store.freeKeepSlot_lt hslot

theorem Board.keeps.patchWord (h : b.keeps S O L) {p : List Byte} : (b.patchWord p).keeps S O L := by
  unfold Board.patchWord
  repeat' split
  · exact h.deny
  · exact h.deny
  · exact h.deny
  · exact h.deny
  · exact h.deny
  · rename_i he _
    exact h.requestReads (h.entrySlot he) (by decide)

theorem Board.keeps.releaseSector (h : b.keeps S O L) {p : List Byte} : (b.releaseSector p).keeps S O L := by
  unfold Board.releaseSector
  repeat' split
  · exact h.deny
  · exact h.deny
  · exact h.deny
  · exact h.deny
  · exact h.releaseEntry.ok
  · exact h.deny

theorem Board.keeps.clearStoreLog (h : b.keeps S O L) {p : List Byte} : (b.clearStoreLog p).keeps S O L :=
  h.withSk (.inl rfl)

theorem Board.keeps.resetBuffer (h : b.keeps S O L) {d : DriveNo} : (b.resetBuffer d).keeps S O L := by
  unfold Board.resetBuffer
  dsimp only
  repeat' split
  · exact h
  · exact h
  · exact h.voidBuffer.makeRelay
  · exact h.voidBuffer
  · exact h.askAgain
  · exact h.voidBuffer

theorem Board.keeps.changeProfile (h : b.keeps S O L) {d : DriveNo} {p : Profile} :
    (b.changeProfile d p).keeps S O L := by
  unfold Board.changeProfile
  extract_lets old b1 b2 x b3 b4
  have h1 : b1.keeps S O L := Board.keeps.modRt (h.modDrv fun _ hx => hx)
  have h4 : b4.keeps S O L := by
    simp only [b4]
    split
    · exact h1.resetBuffer.note
    · exact h1.resetBuffer.note.watchdog
  exact h4.exam true

theorem Board.keeps.setProfile (h : b.keeps S O L) {p : List Byte} : (b.setProfile p).keeps S O L := by
  unfold Board.setProfile
  repeat' split
  · exact h.deny
  · exact h.deny
  · exact h.deny
  · exact h.changeProfile.reply

theorem Board.keeps.pressStarved (h : b.keeps S O L) {d : DriveNo} : (b.pressStarved d).keeps S O L :=
  h.mapJobs fun j _ => by
    split
    · exact Job.keeps_of_same (Job.sameName.refl j) rfl rfl
    · exact Job.keeps_of_same (Job.sameName.refl j) rfl rfl

theorem Board.keeps.withAuto (h : b.keeps S O L) (a : Quad Bool) :
    ({ b with re := { b.re with auto := a }, exam := true } : Board).keeps S O L := h

theorem Board.keeps.recordShare (h : b.keeps S O L) {d : DriveNo} {r : ShareReq} :
    (b.recordShare d r).keeps S O L := by
  unfold Board.recordShare
  extract_lets lp b1 b2 b3
  have h2 : b2.keeps S O L := by
    simp only [b2]
    split
    · exact h.modLp fun _ => by rfl
    · exact (h.modLp fun _ => by rfl).resetBuffer
  exact (Board.keeps.modDa h2).withAuto _

theorem Board.keeps.setShare (h : b.keeps S O L) {p : List Byte} : (b.setShare p).keeps S O L := by
  unfold Board.setShare
  split
  · exact h.recordShare.reply.pressStarved.holdExpiry.takeOrWait
  · exact h.deny

theorem Board.keeps.reachLadder (h : b.keeps S O L) {n : Nat} : (b.reachLadder n).keeps S O L := by
  have h1 (l : List LadderStep) : (b.modJob n fun j => j.normalise l).keeps S O L :=
    h.modJob fun j => j.normalise_same l
  unfold Board.reachLadder
  dsimp only
  repeat' split
  · exact h
  · exact (h1 _).restOrFinish
  · exact h1 _
  · exact h1 _
  · exact h

theorem Board.keeps.withLadder (h : b.keeps S O L) (l : List LadderStep) :
    ({ b with re := { b.re with ladder := l } } : Board).keeps S O L := h

theorem Board.keeps.setLadder (h : b.keeps S O L) {p : List Byte} : (b.setLadder p).keeps S O L := by
  unfold Board.setLadder
  split
  · exact h.deny
  · exact ((h.withLadder _).reply).foldl _ fun _ _ _ hc => hc.reachLadder

theorem Board.keeps.setSolve (h : b.keeps S O L) {p : List Byte} : (b.setSolve p).keeps S O L := h

theorem Board.keeps.setScrub (h : b.keeps S O L) {p : List Byte} : (b.setScrub p).keeps S O L :=
  h.withSk (.inl rfl)

end

end Sys2Proof.Machine
end

section
/-! PROOFS. The invariants of the tables over the resets, and over every step (O6, O7). -/

namespace Sys2Proof.Machine

/-! ### Resets (R142, R144) -/

theorem Drive.slotsIn_of_reset {x : Drive} (hl : x.lp.diversion = none) (hr : x.rc = .reset) : x.slotsIn := by
  unfold Drive.slotsIn
  rw [hl, hr]
  simp [Channel.reset, CaptureBuffer.empty, Setup.slotsIn]

theorem Store.entrySlots_ordered (dir : List KeepEntry) : ((Store.entrySlots dir).map (·.1)).Pairwise (· < ·) := by
  suffices h : ∀ ks : List (Nat × KeepState), (ks.map (·.1)).Pairwise (· < ·) →
      ((dir.foldl (fun ks e => putKeep e.slot .entry ks) ks).map (·.1)).Pairwise (· < ·) from h [] List.Pairwise.nil
  induction dir with
  | nil => exact fun _ hk => hk
  | cons e dir ih => exact fun ks hk => ih _ (by rw [putKeep_slots]; exact insertNat_ordered hk)

theorem KeepEntry.checkRecord_slot (rec : List Nat) (e : KeepEntry) : (e.checkRecord rec).slot = e.slot := by
  unfold KeepEntry.checkRecord; split <;> rfl

theorem KeepEntry.checkRecord_addr (rec : List Nat) (e : KeepEntry) : (e.checkRecord rec).addr = e.addr := by
  unfold KeepEntry.checkRecord; split <;> rfl

theorem Store.ordered.powerUp {ts : Store} (h : ts.ordered) (retention : Bool) : (ts.powerUp retention).ordered := by
  unfold Store.powerUp
  cases retention with
  | true =>
    refine ⟨?_, Store.entrySlots_ordered _, List.Pairwise.nil, List.Pairwise.nil⟩
    have hk : ((KeepEntry.addr · |>.key) ∘ KeepEntry.checkRecord ts.writeRec) = (·.addr.key) :=
      funext fun e => congrArg Addr.key (e.checkRecord_addr _)
    simp only [if_true, List.map_map, hk]
    exact h.1
  | false => simp [Store.ordered]

theorem Store.ordered.restart {ts : Store} (h : ts.ordered) : ts.restart.ordered :=
  ⟨h.1, Store.entrySlots_ordered _, List.Pairwise.nil, h.2.2.2.sublist List.filter_sublist⟩

theorem Engine.reset_lawful : Engine.reset.lawful := by
  unfold Engine.lawful
  decide

section
variable {b : Board} {S O L : Prop}

theorem Board.keeps.powerUp (h : b.keeps S O L) {retention strap1 strap2 : Bool} {ready : BitVec 4} :
    (b.powerUp retention strap1 strap2 ready).keeps S O L := by
  refine ⟨fun hS => ⟨⟨Nat.zero_lt_succ _, ?_⟩, fun e he => ?_, ?_, ?_, ?_, fun d => Drive.slotsIn_of_reset ?_ ?_⟩,
    fun hO => (h.2.1 hO).powerUp retention, fun _ => Engine.reset_lawful⟩
  · cases retention <;> simp [Board.powerUp, Store.powerUp]
  · cases retention with
    | false => simp [Board.powerUp, Store.powerUp] at he
    | true =>
      obtain ⟨x, hx, rfl⟩ := List.mem_map.1 he
      rw [KeepEntry.checkRecord_slot]
      exact slotIn_some.2 (h.dirSlot hx hS)
  · cases retention <;> simp [Board.powerUp, Store.powerUp]
  · simp [Board.powerUp, Engine.reset]
  · simp [Board.powerUp, Solver.reset]
  all_goals (unfold Board.drv Quad.get Board.powerUp; fin_cases d <;> rfl)

theorem Board.keeps.powerNotices (h : b.keeps S O L) {retention : Bool} {named : List KeepEntry} :
    (b.powerNotices retention named).keeps S O L := by
  unfold Board.powerNotices
  dsimp only
  split
  · exact h.note.note.foldl _ fun _ _ _ hc => hc.addReport
  · exact h.note

theorem Board.keeps.restartRestore (h : b.keeps S O L) {d : DriveNo} : (b.restartRestore d).keeps S O L := by
  unfold Board.restartRestore
  dsimp only
  split
  · exact h.restoreSteps
  · exact h

theorem Board.keeps.restart (h : b.keeps S O L) : b.restart.keeps S O L := by
  unfold Board.restart
  refine Board.keeps.foldl _ ⟨fun hS => ?_, fun hO => (h.2.1 hO).restart, fun _ => Engine.reset_lawful⟩
    fun _ _ _ hc => hc.restartRestore
  obtain ⟨⟨haddr, -⟩, hdir, -⟩ := h.1 hS
  refine ⟨⟨haddr, by simp [Store.restart]⟩, hdir, by simp [Store.restart], by simp [Engine.reset],
    by simp [Solver.reset], fun d => Drive.slotsIn_of_reset ?_ ?_⟩
  all_goals (unfold Board.drv Quad.get; fin_cases d <;> rfl)

theorem Board.keeps.settle (h : b.keeps S O L) (s : State) (l : Link) (m : Dram) :
    (settle s b l m).board.keeps S O L := (h.nextSolveFor (b.su.queue.length + 2)).examine

end

/-! ### Every command (O6) -/

theorem Board.keeps_steady (S O L : Prop) : Board.Steady (·.keeps S O L) where
  post := by rintro b _ h ⟨o, a, rfl⟩; exact h
  tick h := h
  settled s l m h := h.settle s l m

theorem Board.inRange_steady : Board.Steady Board.inRange where
  post := by rintro b _ h ⟨o, a, rfl⟩; exact h
  tick h := h
  settled s l m h := settle_inRange s l m h

/-- The board after RESTART_RESET: reset with its writes finished, where the reset is due (R144, R162). -/
theorem restartReset_board {s t : State} (e : execRestartReset s = .next t) :
    t.board = s.board ∨ t.board = (finishWrites s.board s.dram).1.restart := by
  unfold execRestartReset at e
  split at e
  · revert e
    generalize finishWrites s.board s.dram = p
    obtain ⟨b, m⟩ := p
    intro e
    exact .inr (congrArg State.board (Host.Outcome.next.inj e)).symm
  · exact .inl (congrArg State.board (Host.Outcome.next.inj e)).symm
  · exact .inl (congrArg State.board (Host.Outcome.next.inj e)).symm

/-- The tables' invariants over every command. -/
theorem exec_keeps {S O L : Prop} {i : Instr} {s t : State} (h : s.board.keeps S O L) (e : exec i s = .next t) :
    t.board.keeps S O L := by
  have hP := Board.keeps_steady S O L
  cases i with dsimp only [exec] at e
  | powerUp retention strap1 strap2 ready => cases e; exact h.powerUp.powerNotices
  | storeInitComplete => exact hP.onBoard e h.storeReady
  | restart => exact hP.onLink e h (restartRequest_sameTables _ _)
  | restartReset =>
    obtain e | e := restartReset_board e
    · rw [e]; exact h
    · rw [e]; exact h.finishWrites.restart
  | busClear => exact hP.onBoard e h.busClear
  | lineBreak => exact hP.onLink e h (lineBreak_sameTables _ _)
  | breakEnd => exact hP.onLink e h (by split <;> exact .refl _)
  | seek d c => exact hP.onBoard e h.arrive
  | recalibrate d => exact hP.onBoard e h.arrive
  | headSelect d x => exact hP.onBoard e h.arrive
  | read d k => exact hP.onBoard e h.arrive
  | write d k => exact hP.onBoard e h.arrive
  | driveOnCylinder d => exact hP.onBoard e h.onCylinder
  | driveSeekError d => exact hP.onBoard e h.seekError
  | driveReadyDrop d => exact hP.onBoard e h.readyDrop
  | driveReadyRise d => exact hP.onBoard e h.readyRise
  | offlineLostTimeout d => exact hP.onBoard e h.driveLost
  | sectorPulse d wp => exact hP.onBoard e h.sectorPulse
  | relaySectorWriteEnd d => exact hP.onBoard e h.sectorWritten
  | emissionEnd d => exact hP.onBoard e h.emissionOver
  | awaitingSlotTimeout d => exact hP.onBoard e h.slotTimeout
  | indexPulse d => exact hP.onBoard e h.indexPulse
  | indexWatchdogExpiry d => exact hP.onBoard e h.watchdog
  | syncHuntLimit d frames => exact hP.onBoard e (h.modRc fun rc => rc.huntLimit_sameSlots frames)
  | imageComplete d frames => exact hP.onBoard e h.imageComplete
  | controllerWriteGateRaise d => exact hP.onBoard e h.gateRaise
  | controllerWriteGateDrop d => exact hP.onBoard e h.gateFall
  | absorptionComplete d data check => exact hP.onBoard e h.absorb
  | diversionCommitComplete d => exact hP.onBoard e h.commitDone
  | emitFillComplete d => exact hP.onBoard e h.fillDone
  | captureWriteComplete d i => exact hP.onBoard e h.captureDone
  | offsetSettleTimer d onCyl => exact hP.onBoard e h.settleTimer
  | offsetFaultTimeout d => exact hP.onBoard e h.faultTimer
  | engineSeekTimeout d => exact hP.onBoard e h.engineSeekTimer
  | restoreSeekTimeout d => exact hP.onBoard e h.restoreTimer
  | idleGraceExpiry d => exact hP.onBoard e h.graceExpiry
  | starveLimitExpiry job => exact hP.onBoard e h.starveExpiry
  | take d => exact hP.onBoard e h.takeOrWait
  | holdLimitExpiry d => exact hP.onBoard e h.holdExpiry
  | solveStart => exact hP.onBoard e h.solveStart
  | snapshotReadComplete slot => exact hP.onBoard e h.snapshotRead
  | deliveryWriteComplete => exact hP.onBoard e h.deliveryDone
  | storeAccessGrant pick wrong => exact hP.onStore e (fun _ _ hg => h.storeGrant hg)
  | refreshTick => exact hP.onBoard e h.refreshTick
  | scrubTick => exact hP.onBoard e h.scrubTick
  | refreshBurst => exact hP.onBoard e h.refreshBurst
  | scrubAccess wrong => exact hP.onStore e (fun _ _ hg => h.scrubCell hg)
  | fetchSectorReadEnd => exact hP.onBoard e h.fetchSectorDone
  | fetchCaptureReadEnd => exact hP.onBoard e h.fetchCaptureDone
  | storeSectorWriteEnd => exact hP.onBoard e h.storeSectorDone
  | patchWriteEnd => exact hP.onBoard e h.patchDone
  | writeBufferFillEnd d => exact hP.onBoard e h.writeFillDone
  | directoryCopyEnd slot => exact hP.onBoard e h.copyDone
  | frameReceived last => exact hP.onLink e h (takeLastByte_sameTables _ _ _)
  | framingFault => exact hP.onLink e h (by split; exacts [discardFrame_sameTables _ _ _, .refl _])
  | frameGapTimeout => exact hP.onLink e h (by split; exacts [discardFrame_sameTables _ _ _, .refl _])
  | transmitFrameEnd => exact hP.onLink e h (.refl _)
  | identify => exact hP.enquiry e h (fun _ => .ok _ _)
  | getTime => exact hP.enquiry e h (fun _ => .ok _ _)
  | getDrive => exact hP.enquiry e h (Board.getDrive_sameTables _)
  | setProfile => exact hP.handleRequest e h (fun _ => h.setProfile)
  | getProfile => exact hP.enquiry e h (Board.getProfile_sameTables _)
  | setSolve => exact hP.handleRequest e h (fun _ => h.setSolve)
  | setShare => exact hP.handleRequest e h (fun _ => h.setShare)
  | setLadder => exact hP.handleRequest e h (fun _ => h.setLadder)
  | getLadder => exact hP.enquiry e h (fun _ => .ok _ _)
  | fileJob => exact hP.handleRequest e h (fun _ => h.fileJob)
  | cancelJob => exact hP.handleRequest e h (fun _ => h.cancelJob)
  | getJob => exact hP.enquiry e h (Board.getJob_sameTables _)
  | listJobs => exact hP.enquiry e h (fun _ => .ok _ _)
  | listSuspects => exact hP.enquiry e h (Board.listSuspects_sameTables _)
  | dropSuspect => exact hP.handleRequest e h (fun _ => h.dropSuspect)
  | listKeep => exact hP.enquiry e h (Board.listKeep_sameTables _)
  | fetchSector => exact hP.handleRequest e h (fun _ => h.fetchSector)
  | fetchCapture => exact hP.handleRequest e h (fun _ => h.fetchCapture)
  | storeSector => exact hP.handleRequest e h (fun _ => h.storeSector)
  | patchWord => exact hP.handleRequest e h (fun _ => h.patchWord)
  | releaseSector => exact hP.handleRequest e h (fun _ => h.releaseSector)
  | getStoreLog => exact hP.enquiry e h (fun _ => .ok _ _)
  | clearStoreLog => exact hP.handleRequest e h (fun _ => h.clearStoreLog)
  | setScrub => exact hP.handleRequest e h (fun _ => h.setScrub)
  | unknownRequest =>
    refine hP.onLink e h ?_
    repeat' split
    · exact .deny _ _
    · exact .refl _
    · exact .refl _
  | byteReceived x => exact hP.onLink e h (takeByte_sameTables _ _ _)
  | syncFound d frames => exact hP.onBoard e (h.modRc fun rc => rc.syncFound_sameSlots frames)
  | headerWordsRead d frames => exact hP.onBoard e (h.modRc fun rc => rc.headerRead_sameSlots _ frames)

theorem storeGrant_fits {b b' : Board} {m m' : Dram} {q : DriveNo → Profile} (h : b.fits q) {pick : Nat}
    {w : CellBits} (hg : storeGrant b m pick w = .ok (b', m')) : b'.fits q := by
  unfold storeGrant at hg
  split at hg
  · cases hg; exact h
  · split at hg
    · exact grantAccess_fits h hg
    · cases hg; exact h

/-- The sizes of the tables over every command. -/
theorem exec_inRange {i : Instr} {s t : State} (h : s.board.inRange) (e : exec i s = .next t) : t.board.inRange := by
  have hP := Board.inRange_steady
  have hb := Board.fits_self h
  cases i with dsimp only [exec] at e
  | powerUp retention strap1 strap2 ready =>
    cases e
    exact (Board.powerNotices_fits (Board.fits_self (Board.powerUp_inRange _ _ _ _ _)) _ _).1
  | storeInitComplete => exact hP.onBoard e (Board.storeReady_fits hb).1
  | restart => exact hP.onLink e h (restartRequest_sameTables _ _)
  | restartReset =>
    obtain e | e := restartReset_board e
    · rw [e]; exact h
    · rw [e]; exact Board.restart_inRange (finishWrites_fits hb).1
  | busClear => exact hP.onBoard e (Board.busClear_fits hb).1
  | lineBreak => exact hP.onLink e h (lineBreak_sameTables _ _)
  | breakEnd => exact hP.onLink e h (by split <;> exact .refl _)
  | seek d c => exact hP.onBoard e (Board.arrive_fits hb _ _).1
  | recalibrate d => exact hP.onBoard e (Board.arrive_fits hb _ _).1
  | headSelect d x => exact hP.onBoard e (Board.arrive_fits hb _ _).1
  | read d k => exact hP.onBoard e (Board.arrive_fits hb _ _).1
  | write d k => exact hP.onBoard e (Board.arrive_fits hb _ _).1
  | driveOnCylinder d => exact hP.onBoard e (Board.onCylinder_fits hb _).1
  | driveSeekError d => exact hP.onBoard e (Board.seekError_fits hb _).1
  | driveReadyDrop d => exact hP.onBoard e (Board.readyDrop_fits hb _).1
  | driveReadyRise d => exact hP.onBoard e (Board.readyRise_fits hb _).1
  | offlineLostTimeout d => exact hP.onBoard e (Board.driveLost_fits hb _).1
  | sectorPulse d wp => exact hP.onBoard e (Board.sectorPulse_fits hb _ _).1
  | relaySectorWriteEnd d => exact hP.onBoard e (Board.sectorWritten_fits hb _).1
  | emissionEnd d => exact hP.onBoard e (Board.emissionOver_fits hb _).1
  | awaitingSlotTimeout d => exact hP.onBoard e (Board.slotTimeout_fits hb _).1
  | indexPulse d => exact hP.onBoard e (Board.indexPulse_fits hb _).1
  | indexWatchdogExpiry d => exact hP.onBoard e (Board.watchdog_fits hb _).1
  | syncHuntLimit d frames => exact hP.onBoard e (Board.modRc_fits hb _ _).1
  | imageComplete d frames => exact hP.onBoard e (Board.imageComplete_fits hb _ _).1
  | controllerWriteGateRaise d => exact hP.onBoard e (Board.gateRaise_fits hb _).1
  | controllerWriteGateDrop d => exact hP.onBoard e (Board.gateFall_fits hb _).1
  | absorptionComplete d data check => exact hP.onBoard e (Board.absorb_fits hb _ _ _).1
  | diversionCommitComplete d => exact hP.onBoard e (Board.commitDone_fits hb _).1
  | emitFillComplete d => exact hP.onBoard e (Board.fillDone_fits hb _).1
  | captureWriteComplete d i => exact hP.onBoard e (Board.captureDone_fits hb _ _).1
  | offsetSettleTimer d onCyl => exact hP.onBoard e (Board.settleTimer_fits hb _ _).1
  | offsetFaultTimeout d => exact hP.onBoard e (Board.faultTimer_fits hb _).1
  | engineSeekTimeout d => exact hP.onBoard e (Board.engineSeekTimer_fits hb _).1
  | restoreSeekTimeout d => exact hP.onBoard e (Board.restoreTimer_fits hb _).1
  | idleGraceExpiry d => exact hP.onBoard e (Board.graceExpiry_fits hb _).1
  | starveLimitExpiry job => exact hP.onBoard e (Board.starveExpiry_fits hb _).1
  | take d => exact hP.onBoard e (Board.takeOrWait_fits hb _).1
  | holdLimitExpiry d => exact hP.onBoard e (Board.holdExpiry_fits hb _).1
  | solveStart => exact hP.onBoard e (Board.solveStart_fits hb).1
  | snapshotReadComplete slot => exact hP.onBoard e (Board.snapshotRead_fits hb _).1
  | deliveryWriteComplete => exact hP.onBoard e (Board.deliveryDone_fits hb).1
  | storeAccessGrant pick wrong => exact hP.onStore e (fun _ _ hg => (storeGrant_fits hb hg).1)
  | refreshTick => exact hP.onBoard e (Board.refreshTick_fits hb).1
  | scrubTick => exact hP.onBoard e (Board.scrubTick_fits hb).1
  | refreshBurst => exact hP.onBoard e (Board.refreshBurst_fits hb).1
  | scrubAccess wrong => exact hP.onStore e (fun _ _ hg => (scrubCell_fits hb hg).1)
  | fetchSectorReadEnd => exact hP.onBoard e (Board.fetchSectorDone_fits hb).1
  | fetchCaptureReadEnd => exact hP.onBoard e (Board.fetchCaptureDone_fits hb).1
  | storeSectorWriteEnd => exact hP.onBoard e (Board.storeSectorDone_fits hb).1
  | patchWriteEnd => exact hP.onBoard e (Board.patchDone_fits hb).1
  | writeBufferFillEnd d => exact hP.onBoard e (Board.writeFillDone_fits hb _).1
  | directoryCopyEnd slot => exact hP.onBoard e (Board.copyDone_fits hb _).1
  | frameReceived last => exact hP.onLink e h (takeLastByte_sameTables _ _ _)
  | framingFault => exact hP.onLink e h (by split; exacts [discardFrame_sameTables _ _ _, .refl _])
  | frameGapTimeout => exact hP.onLink e h (by split; exacts [discardFrame_sameTables _ _ _, .refl _])
  | transmitFrameEnd => exact hP.onLink e h (.refl _)
  | identify => exact hP.enquiry e h (fun _ => .ok _ _)
  | getTime => exact hP.enquiry e h (fun _ => .ok _ _)
  | getDrive => exact hP.enquiry e h (Board.getDrive_sameTables _)
  | setProfile => exact hP.handleRequest e h (fun _ => Board.setProfile_inRange h _)
  | getProfile => exact hP.enquiry e h (Board.getProfile_sameTables _)
  | setSolve => exact hP.handleRequest e h (fun _ => (Board.setSolve_fits hb _).1)
  | setShare => exact hP.handleRequest e h (fun _ => (Board.setShare_fits hb _).1)
  | setLadder => exact hP.handleRequest e h (fun _ => (Board.setLadder_fits hb _).1)
  | getLadder => exact hP.enquiry e h (fun _ => .ok _ _)
  | fileJob => exact hP.handleRequest e h (fun _ => (Board.fileJob_fits hb _).1)
  | cancelJob => exact hP.handleRequest e h (fun _ => (Board.cancelJob_fits hb _).1)
  | getJob => exact hP.enquiry e h (Board.getJob_sameTables _)
  | listJobs => exact hP.enquiry e h (fun _ => .ok _ _)
  | listSuspects => exact hP.enquiry e h (Board.listSuspects_sameTables _)
  | dropSuspect => exact hP.handleRequest e h (fun _ => (Board.dropSuspect_fits hb _).1)
  | listKeep => exact hP.enquiry e h (Board.listKeep_sameTables _)
  | fetchSector => exact hP.handleRequest e h (fun _ => (Board.fetchSector_fits hb _).1)
  | fetchCapture => exact hP.handleRequest e h (fun _ => (Board.fetchCapture_fits hb _).1)
  | storeSector => exact hP.handleRequest e h (fun _ => (Board.storeSector_fits hb _).1)
  | patchWord => exact hP.handleRequest e h (fun _ => (Board.patchWord_fits hb _).1)
  | releaseSector => exact hP.handleRequest e h (fun _ => (Board.releaseSector_fits hb _).1)
  | getStoreLog => exact hP.enquiry e h (fun _ => .ok _ _)
  | clearStoreLog => exact hP.handleRequest e h (fun _ => (Board.clearStoreLog_fits hb _).1)
  | setScrub => exact hP.handleRequest e h (fun _ => (Board.setScrub_fits hb _).1)
  | unknownRequest =>
    refine hP.onLink e h ?_
    repeat' split
    · exact .deny _ _
    · exact .refl _
    · exact .refl _
  | byteReceived x => exact hP.onLink e h (takeByte_sameTables _ _ _)
  | syncFound d frames => exact hP.onBoard e (Board.modRc_fits hb _ _).1
  | headerWordsRead d frames => exact hP.onBoard e (Board.modRc_fits hb _ _).1

theorem step_keeps {S O L : Prop} {s t : State} (h : s.board.keeps S O L) (e : step s = .next t) :
    t.board.keeps S O L :=
  (Board.keeps_steady S O L).step (fun _ _ _ hb he => exec_keeps hb he) h e

/-! ### One slot for each entry (R132) -/

theorem Board.letGo_dir (b : Board) (slot : Nat) : (b.letGo slot).ts.dir = b.ts.dir := by
  unfold Board.letGo
  repeat' split
  all_goals rfl

theorem Board.voidBuffer_dir (b : Board) (d : DriveNo) : (b.voidBuffer d).ts.dir = b.ts.dir := by
  unfold Board.voidBuffer Board.abandonFill
  rfl

theorem Board.makeRelay_dir (b : Board) (d : DriveNo) : (b.makeRelay d).ts.dir = b.ts.dir := by
  unfold Board.makeRelay Board.setAside
  dsimp only
  repeat' split
  all_goals rfl

theorem Board.askAgain_dir (b : Board) (d : DriveNo) : (b.askAgain d).ts.dir = b.ts.dir := by
  unfold Board.askAgain
  dsimp only
  repeat' split
  · rfl
  · rw [Board.makeRelay_dir, Board.voidBuffer_dir]
  · rw [Board.makeRelay_dir, Board.voidBuffer_dir]

theorem Board.entryChanged_dir (b : Board) (a : Addr) : (b.entryChanged a).ts.dir = b.ts.dir := by
  unfold Board.entryChanged
  dsimp only
  repeat' split
  · rfl
  · rfl
  · exact b.askAgain_dir _
  · exact b.voidBuffer_dir _

/-- The directory after an entry is made. -/
theorem Board.createEntry_dir (b : Board) (a : Addr) (slot : Nat) (kind : KeepKind) :
    ∃ e : KeepEntry, e.addr = a ∧ e.slot = slot ∧ (b.createEntry a slot kind).ts.dir = dirInsert e b.ts.dir := by
  refine ⟨{ addr := a, slot := slot, kind := kind, damaged := false, time := b.now, epoch := b.ts.epoch,
            exported := false }, rfl, rfl, ?_⟩
  unfold Board.createEntry
  dsimp only
  rw [Board.entryChanged_dir]
  repeat' split
  · rfl
  · rw [Board.letGo_dir]; rfl
  · rfl

/-- An entry put in its place leaves one entry on each slot, where no entry of another address has its slot. -/
theorem dirInsert_slots_nodup {e : KeepEntry} {l : List KeepEntry}
    (hk : (l.map (·.addr.key)).Pairwise (· < ·)) (hn : (l.map (·.slot)).Nodup)
    (he : ∀ x ∈ l, x.slot = e.slot → x.addr = e.addr) : ((dirInsert e l).map (·.slot)).Nodup := by
  induction l with
  | nil => simp [dirInsert]
  | cons x xs ih =>
    simp only [List.map_cons, List.pairwise_cons, List.nodup_cons, List.mem_map, forall_exists_index, and_imp] at hk hn
    obtain ⟨hx, hk⟩ := hk
    obtain ⟨hxn, hn⟩ := hn
    have hlater {y : KeepEntry} (hy : y ∈ xs) (hs : y.slot = e.slot) : x.addr.key < e.addr.key := by
      have := hx _ y hy rfl
      rwa [he y (List.mem_cons_of_mem x hy) hs] at this
    unfold dirInsert
    split_ifs with hlt heq
    · simp only [List.map_cons, List.nodup_cons, List.mem_cons, List.mem_map]
      refine ⟨?_, by simpa using hxn, hn⟩
      rintro (hs | ⟨y, hy, hs⟩)
      · rw [he x (by simp) hs.symm] at hlt; omega
      · have := hlater hy hs; omega
    · simp only [List.map_cons, List.nodup_cons, List.mem_map]
      refine ⟨?_, hn⟩
      rintro ⟨y, hy, hs⟩
      have := hlater hy hs; omega
    · simp only [List.map_cons, List.nodup_cons, List.mem_map]
      refine ⟨?_, ih hk hn fun y hy => he y (List.mem_cons_of_mem x hy)⟩
      rintro ⟨y, hy, hs⟩
      obtain rfl | hy := mem_dirInsert hy
      · exact heq (by rw [he x (by simp) hs.symm])
      · exact hxn ⟨y, hy, hs⟩

/-- Settles O6: the sizes by the bounds of each operation, the slots, orders and laws by the one predicate that every
operation keeps, and the slots of the directory by its order. -/
theorem tablesInRange : Obligations.TablesInRange := by
  unfold Obligations.TablesInRange
  refine ⟨fun s t h e => ?_, fun s t h e => ?_, fun s t h e => ?_, fun s t h e => ?_, fun b a slot kind ho hn he => ?_⟩
  · exact Board.inRange_steady.step (fun _ _ _ hb he => exec_inRange hb he) h e
  · have ht : t.board.keeps True False False := step_keeps ⟨fun _ => h, False.elim, False.elim⟩ e
    exact ⟨ht.1 trivial, (ht.1 trivial).1⟩
  · have ht : t.board.keeps False True False := step_keeps ⟨False.elim, fun _ => h, False.elim⟩ e
    exact ht.2.1 trivial
  · have ht : t.board.keeps False False True := step_keeps ⟨False.elim, False.elim, fun _ => h⟩ e
    exact ht.2.2 trivial
  · obtain ⟨e, rfl, rfl, hd⟩ := b.createEntry_dir a slot kind
    rw [hd]
    exact dirInsert_slots_nodup ho.1 hn he

/-! ### The state after reset -/

/-- The state right after reset has the board of a POWER-UP without good retention, every drive READY (R142). -/
theorem reset_board : State.reset.board = State.reset.board.powerUp false false false 15#4 := rfl

theorem reset_keeps : State.reset.board.keeps True True True := by
  have hd (d : DriveNo) : State.reset.board.drv d = .reset 0 true := by fin_cases d <;> rfl
  refine ⟨fun _ => ⟨⟨by decide, by simp [State.reset]⟩, by simp [State.reset], by simp [State.reset],
    by simp [State.reset, Engine.reset], by simp [State.reset, Solver.reset], fun d => ?_⟩, fun _ => ?_,
    fun _ => Engine.reset_lawful⟩
  · rw [hd]; exact Drive.slotsIn_of_reset rfl rfl
  · simp [State.reset, Store.ordered]

/-- Settles O7: the board is one that a POWER-UP leaves, and its tables are empty. -/
theorem resetInvariants : Obligations.ResetInvariants := by
  have hr : State.reset.board.inRange := by rw [reset_board]; exact Board.powerUp_inRange _ _ _ _ _
  have hs := reset_keeps.slots trivial
  exact ⟨by decide, by decide, ⟨rfl, rfl, rfl, rfl⟩, hr, hs, hs.1, reset_keeps.2.1 trivial, reset_keeps.2.2 trivial⟩

end Sys2Proof.Machine
end

section
/-! PROOFS. The store's images and the requests on it, SET_PROFILE, and a diversion absorbed (O22, O47, O52, O58). -/

namespace Sys2Proof.Machine

/-! ### Steps that complete, answer and defer -/

theorem completes_of_onBoard {c : Instr} {s : State} {f : Board → Board} {b : Board} (he : exec c s = onBoard s f)
    (hf : f s.board = b) : Completes c s b := by
  subst hf; exact he

/-- A request that its row answers. -/
theorem answers_of_reply {c : Instr} {s : State} {kind : Byte} {p : List Byte} {f : Board → List Byte → Board}
    {b : Board} {st : Status} {adjusted : Bool} {fields : List Byte} (he : exec c s = handleRequest s kind f)
    (h : s.inHand kind p) (hf : f s.board p = b.reply st adjusted fields) : Answers c s b st adjusted fields := by
  unfold Answers Completes
  rw [he, handleRequest_inHand h, hf]
  rfl

/-- A request that its row leaves in hand (R158). -/
theorem defers_of_silent {c : Instr} {s : State} {kind : Byte} {p : List Byte} {f : Board → List Byte → Board}
    {b : Board} (he : exec c s = handleRequest s kind f) (h : s.inHand kind p) (hf : f s.board p = b)
    (ha : b.answer = none) : Defers c s b := by
  unfold Defers
  rw [he, handleRequest_inHand h, hf, ha]
  rfl

/-! ### SET_PROFILE (R10..R12, R167) -/

theorem u16_eq (p : List Byte) (i : Nat) : u16 p i = 256 * (p.getD i 0).toNat + (p.getD (i + 1) 0).toNat := by
  unfold u16 u8; omega

theorem clampTo_eq (low high n : Nat) (h : low ≤ high) : clampTo low high n = max low (min high n) := by
  unfold clampTo
  split
  · omega
  · split <;> omega

theorem clampTo_ne {low high n : Nat} (h : low ≤ high) : clampTo low high n ≠ n ↔ n < low ∨ high < n := by
  rw [clampTo_eq low high n h]; omega

theorem readDrive_none {p : List Byte} {i : Nat} (h : 3 < (p.getD i 0).toNat) : readDrive p i = none := by
  unfold readDrive u8
  exact if_neg (by omega)

theorem readDrive_some {p : List Byte} {i : Nat} {d : DriveNo} (h : (p.getD i 0).toNat = d.val) :
    readDrive p i = some d := by
  unfold readDrive u8
  rw [h, if_pos (by omega)]
  exact congrArg some (Fin.ext (Nat.mod_eq_of_lt d.isLt))

theorem Board.profileBusy_iff (b : Board) (d : DriveNo) :
    b.profileBusy d = true ↔
      (b.drv d).da.owner.engine = true ∨ (b.drv d).da.owner = .taking ∨ ∃ j ∈ b.re.jobs, j.drive = d := by
  unfold Board.profileBusy
  rw [Bool.or_eq_true, List.any_eq_true]
  simp only [decide_eq_true_eq]
  cases (b.drv d).da.owner <;> simp [Owner.engine]

theorem Board.resetBuffer_invalid {b : Board} {d : DriveNo} (h : (b.drv d).lp.buf.state = .invalid) :
    b.resetBuffer d = b := by
  unfold Board.resetBuffer
  simp only [h]

/-- A taken profile of the same period, with no buffer to reset. -/
theorem Board.changeProfile_same {b : Board} {d : DriveNo} {pr : Profile}
    (hb : (b.drv d).lp.buf.state = .invalid) (hp : pr.period = (b.drv d).profile.period) :
    let x := b.drv d
    b.changeProfile d pr =
      { b with
        exam := true,
        drives := b.drives.set d { x with
          profile := pr, rt := { x.rt with position := x.rt.position % pr.sectors } },
        out := b.out ++
          [⟨some d, b.now, if x.pins.ready then .ready none else .offline x.da.owner none⟩] } := by
  intro x
  unfold Board.changeProfile
  extract_lets old b1 b2 y b3 b4
  have h1 : b1 = { b with drives := b.drives.set d { x with
      profile := pr, rt := { x.rt with position := x.rt.position % pr.sectors } } } := by
    simp only [b1, old, hp, Board.modRt, Board.modDrv, Quad.get_set_same, Quad.set_set, Board.drv, if_true]
    rfl
  have hx : b1.drv d = { x with
      profile := pr, rt := { x.rt with position := x.rt.position % pr.sectors } } := by
    rw [h1]; exact Quad.get_set_same _ _ _
  have h2 : b2 = b1 := Board.resetBuffer_invalid (by rw [hx]; exact hb)
  have h4 : b4 = b3 := if_pos hp
  rw [h4]
  simp only [b3, y, h2, hx, Board.note]
  rw [h1]

/-- Settles O52: the payload's coding, the refusals in their order, and the profile recorded. -/
theorem setProfile : Obligations.SetProfile := by
  unfold Obligations.SetProfile
  refine ⟨fun p => ?_, fun p s h => ?_⟩
  · intro byte pair cylinders heads sectors volume period fits
    unfold readProfile
    simp only [u16_eq]
    refine ⟨fun hn => if_neg hn, fun hf => (if_pos hf).trans ?_⟩
    refine congrArg some (Prod.ext ?_ ?_)
    · simp only [clampTo_eq 15000 40000 _ (by omega)]
      rfl
    · exact decide_eq_decide.2 (by rw [clampTo_ne (by omega)])
  · refine ⟨fun hd => ?_, fun d hd => ?_⟩
    · refine answers_of_reply rfl h ?_
      rw [Board.setProfile, readDrive_none hd]
      rfl
    · intro x engaged
      refine ⟨fun he => answers_of_reply rfl h ?_, fun hn => ⟨fun hr => answers_of_reply rfl h ?_,
        fun pr adjusted hr hb hp => answers_of_reply rfl h ?_⟩⟩
      · rw [Board.setProfile, readDrive_some hd]
        exact if_pos ((s.board.profileBusy_iff d).2 he)
      · simp only [Board.setProfile, readDrive_some hd, mt (s.board.profileBusy_iff d).1 hn, hr]
        rfl
      · simp only [Board.setProfile, readDrive_some hd, mt (s.board.profileBusy_iff d).1 hn, hr]
        rw [Board.changeProfile_same hb hp]
        rfl

/-! ### Images and cells (R5, R6, R8, R128) -/

theorem fitTo_length {α : Type} (x : α) (l : List α) : fitTo x l.length l = l := by
  induction l with
  | nil => rfl
  | cons a l ih => exact congrArg (a :: ·) ih

theorem readHeader_build (a : Addr) (vol : BitVec 12) :
    readHeader (addressWord a.cyl a.head) (identityWord a.sector vol) =
      { cyl := a.cyl.val, head := a.head.val, format := 0, sector := a.sector.val, volume := vol.toNat } := by
  have hw : (addressWord a.cyl a.head).toNat = a.cyl.val * 128 + a.head.val * 32 := by
    simp only [addressWord, BitVec.toNat_ofNat]; omega
  have hi : (identityWord a.sector vol).toNat = a.sector.val * 4096 + vol.toNat := by
    have := vol.isLt
    simp only [identityWord, BitVec.toNat_add, BitVec.toNat_ofNat, BitVec.toNat_setWidth]; omega
  have := vol.isLt
  simp only [readHeader, BitVec.extractLsb'_toNat, hw, hi, Nat.shiftRight_eq_div_pow, Header.mk.injEq]
  omega

theorem buildImage_eq {a : Addr} {vol : BitVec 12} {data : List Word} (h : data.length = 128) :
    buildImage a vol data =
      (buildHeader a vol ++ data) ++ [rotSum (buildHeader a vol ++ data)] := by
  unfold buildImage
  rw [← h, fitTo_length]

theorem pairCell_high (x y : Word) : (pairCell x y).extractLsb' 16 16 = x := by
  apply BitVec.eq_of_toNat_eq
  have := x.isLt; have := y.isLt
  simp only [pairCell, BitVec.extractLsb'_toNat, BitVec.toNat_append, Nat.shiftRight_eq_div_pow]
  rw [← Nat.shiftLeft_add_eq_or_of_lt y.isLt, Nat.shiftLeft_eq]
  omega

theorem pairCell_low (x y : Word) : (pairCell x y).extractLsb' 0 16 = y := by
  apply BitVec.eq_of_toNat_eq
  have := x.isLt; have := y.isLt
  simp only [pairCell, BitVec.extractLsb'_toNat, BitVec.toNat_append, Nat.shiftRight_eq_div_pow]
  rw [← Nat.shiftLeft_add_eq_or_of_lt y.isLt, Nat.shiftLeft_eq]
  omega

/-- A list written out by its places. -/
theorem eq_map_range_getD {α : Type} (x : α) {n : Nat} {l : List α} (h : l.length = n) :
    (List.range n).map (fun i => l.getD i x) = l := by
  subst h
  refine List.ext_getElem (by simp) fun i h1 h2 => ?_
  simp [List.getElem?_eq_getElem h2]

theorem getD_map_range {α : Type} (x : α) (f : Nat → α) {n i : Nat} (h : i < n) :
    ((List.range n).map f).getD i x = f i := by
  simp [h]

theorem unpackWords_packWords {img : List Word} (h : img.length = 131) : unpackWords (packWords img) = img := by
  refine Eq.trans (List.map_congr_left fun i hi => ?_) (eq_map_range_getD 0 h)
  have hi : i < 131 := List.mem_range.1 hi
  have hcell : (packWords img).getD (i / 2) 0 = pairCell (img.getD (2 * (i / 2)) 0) (img.getD (2 * (i / 2) + 1) 0) :=
    getD_map_range 0 _ (by simp only [Config.imageCells]; omega)
  simp only [hcell]
  split
  · rw [pairCell_high]; congr 1; omega
  · rw [pairCell_low]; congr 1; omega

/-- A value put below those of a cell. -/
theorem pushValue_toNat (acc : BitVec 32) (v : Nat) (h : acc.toNat < 2 ^ 28) :
    ((acc <<< 4) ||| BitVec.ofNat 32 (v % 16)).toNat = acc.toNat * 16 + v % 16 := by
  have hv : v % 16 < 2 ^ 4 := Nat.mod_lt _ (by omega)
  simp only [BitVec.toNat_or, BitVec.toNat_shiftLeft, BitVec.toNat_ofNat]
  rw [Nat.shiftLeft_eq, Nat.mod_eq_of_lt (by omega), Nat.mod_eq_of_lt (a := v % 16) (by omega),
    ← Nat.shiftLeft_eq, ← Nat.shiftLeft_add_eq_or_of_lt hv, Nat.shiftLeft_eq]

/-- Values put into a cell one below the other. -/
theorem pushValues_toNat (f : Nat → Nat) (n : Nat) (h : n ≤ 8) :
    ((List.range n).foldl (fun (acc : BitVec 32) i => (acc <<< 4) ||| BitVec.ofNat 32 (f i % 16)) 0).toNat < 16 ^ n ∧
    ∀ i < n, ((List.range n).foldl (fun (acc : BitVec 32) i => (acc <<< 4) ||| BitVec.ofNat 32 (f i % 16)) 0).toNat /
      16 ^ (n - 1 - i) % 16 = f i % 16 := by
  induction n with
  | zero => simp
  | succ n ih =>
    obtain ⟨hlt, hget⟩ := ih (by omega)
    have hpow : 16 ^ n ≤ 2 ^ 28 := by
      calc 16 ^ n ≤ 16 ^ 7 := Nat.pow_le_pow_right (by omega) (by omega)
        _ = 2 ^ 28 := by norm_num
    rw [List.range_succ, List.foldl_append]
    simp only [List.foldl_cons, List.foldl_nil]
    rw [pushValue_toNat _ _ (by omega)]
    refine ⟨by rw [Nat.pow_succ]; omega, fun i hi => ?_⟩
    obtain rfl | hi := Nat.lt_succ_iff_lt_or_eq.1 hi |>.symm
    · simp
    · rw [← hget i hi, show n + 1 - 1 - i = 1 + (n - 1 - i) by omega, Nat.pow_add, ← Nat.div_div_eq_div_mul]
      congr 2
      omega

theorem unpackValues_packValues {vals : List Nat} (h : vals.length = 131) (hv : ∀ v ∈ vals, v < 16) :
    unpackValues (packValues vals) = vals := by
  refine Eq.trans (List.map_congr_left fun i hi => ?_) (eq_map_range_getD 0 h)
  have hi : i < 131 := List.mem_range.1 hi
  have hcell := getD_map_range (0 : BitVec 32) (fun c => (List.range 8).foldl (fun (acc : BitVec 32) i =>
      (acc <<< 4) ||| BitVec.ofNat 32 (vals.getD (8 * c + i) 0 % 16)) 0) (show i / 8 < 17 by omega)
  have hval : vals.getD i 0 < 16 := by
    rw [List.getD_eq_getElem _ _ (by omega)]
    exact hv _ (List.getElem_mem _)
  have hget := (pushValues_toNat (fun k => vals.getD (8 * (i / 8) + k) 0) 8 le_rfl).2 (i % 8) (by omega)
  unfold packValues
  rw [hcell, BitVec.extractLsb'_toNat, Nat.shiftRight_eq_div_pow, Nat.pow_mul]
  simp only [show 8 * (i / 8) + i % 8 = i by omega, Nat.mod_eq_of_lt hval] at hget
  exact hget

/-- Settles O47. -/
theorem imageCodings : Obligations.ImageCodings := by
  unfold Obligations.ImageCodings
  refine ⟨fun a vol data h => ?_, fun img h => unpackWords_packWords h, fun vals h hv => unpackValues_packValues h hv⟩
  have hbody : (buildHeader a vol ++ data).length = 130 := by simp [buildHeader, h]
  intro img
  have himg : img = (buildHeader a vol ++ data) ++ [rotSum (buildHeader a vol ++ data)] := buildImage_eq h
  rw [himg]
  refine ⟨by rw [List.length_append, hbody]; rfl, ?_, ?_, readHeader_build a vol⟩
  · unfold soundImage
    rw [decide_eq_true_eq, ← hbody, List.take_left', List.getD_append_right] <;> simp
  · unfold dataWords
    rw [List.append_assoc]
    simp [buildHeader, ← h]

/-! ### The requests on the store (R136..R139) -/

theorem readAddr_none {p : List Byte} {i : Nat}
    (h : 3 < (p.getD i 0).toNat ∨ 511 < 256 * (p.getD (i + 1) 0).toNat + (p.getD (i + 2) 0).toNat ∨
      3 < (p.getD (i + 3) 0).toNat ∨ 15 < (p.getD (i + 4) 0).toNat) : readAddr p i = none := by
  unfold readAddr
  rw [u16_eq]
  unfold u8
  exact if_neg (by omega)

theorem readAddr_some {p : List Byte} {i : Nat} {a : Addr} (hd : (p.getD i 0).toNat = a.drive.val)
    (hc : 256 * (p.getD (i + 1) 0).toNat + (p.getD (i + 2) 0).toNat = a.cyl.val)
    (hh : (p.getD (i + 3) 0).toNat = a.head.val) (hk : (p.getD (i + 4) 0).toNat = a.sector.val) :
    readAddr p i = some a := by
  unfold readAddr
  rw [u16_eq]
  unfold u8
  rw [hd, hc, hh, hk, if_pos (by omega)]
  simp

section
variable {b : Board} {p : List Byte} {a : Addr}

/-- The store not ready: each of the four is refused before its payload is read (R136..R139). -/
theorem Board.store_notReady (h : b.ts.init ≠ none) :
    b.fetchSector p = b.deny .notReady ∧ b.fetchCapture p = b.deny .notReady ∧ b.storeSector p = b.deny .notReady ∧
      b.patchWord p = b.deny .notReady := by
  have hi : b.ts.init.isSome = true := Option.isSome_iff_ne_none.2 h
  exact ⟨if_pos hi, if_pos hi, if_pos hi, if_pos hi⟩

variable (hi : b.ts.init = none)
include hi

/-- With an address that no pack can hold the three that name one are refused (R165). -/
theorem Board.store_range (ha : readAddr p 0 = none) :
    b.fetchSector p = b.deny .range ∧ b.storeSector p = b.deny .range ∧ b.patchWord p = b.deny .range := by
  unfold Board.fetchSector Board.storeSector Board.patchWord
  simp only [hi, ha, Option.isSome_none, Bool.false_eq_true, if_false, and_self]

theorem Board.fetchSector_missing (ha : readAddr p 0 = some a) (he : b.ts.entry a = none) :
    b.fetchSector p = b.deny .notFound := by
  simp [Board.fetchSector, hi, ha, he]

theorem Board.fetchSector_found (ha : readAddr p 0 = some a) {e : KeepEntry} (he : b.ts.entry a = some e) :
    b.fetchSector p = b.request (.fetchSector a) e.slot (slotReads e.slot Config.slotCells) := by
  simp [Board.fetchSector, hi, ha, he]

theorem Board.fetchCapture_noJob (hj : b.jobById (u8 p 0) = none) : b.fetchCapture p = b.deny .notFound := by
  simp [Board.fetchCapture, hi, hj]

theorem Board.fetchCapture_missing {j : Job} (hj : b.jobById (u8 p 0) = some j)
    (hc : j.captureAt (u8 p 1) (u8 p 2) = none) : b.fetchCapture p = b.deny .notFound := by
  simp [Board.fetchCapture, hi, hj, hc]

theorem Board.fetchCapture_found {j : Job} {c : Capture} (hj : b.jobById (u8 p 0) = some j)
    (hc : j.captureAt (u8 p 1) (u8 p 2) = some c) :
    b.fetchCapture p =
      b.request (.fetchCapture j.serial (u8 p 1) c) c.slot (slotReads c.slot Config.slotCells) := by
  simp [Board.fetchCapture, hi, hj, hc]

section
variable (ha : readAddr p 0 = some a)
include ha

/-- STORE_SECTOR's refusals and its operation, in the order of R138. -/
theorem Board.storeSector_beyond
    (hw : withinProfile (b.drv a.drive).profile a.cyl.val a.head.val a.sector.val = false) :
    b.storeSector p = b.deny .range := by
  simp [Board.storeSector, hi, ha, hw]

variable (hw : withinProfile (b.drv a.drive).profile a.cyl.val a.head.val a.sector.val = true)

include hw in
theorem Board.storeSector_diverted (hd : (b.ts.entry a).any (·.isDiverted) = true) :
    b.storeSector p = b.deny .denied := by
  simp only [Board.storeSector, hi, ha, hw, hd]
  rfl

include hw in
theorem Board.storeSector_full (hd : (b.ts.entry a).any (·.isDiverted) = false) (hf : b.ts.freeKeepSlot = none) :
    b.storeSector p = b.deny .noRoom := by
  simp only [Board.storeSector, hi, ha, hw, hd, hf]
  rfl

include hw in
theorem Board.storeSector_slot (hd : (b.ts.entry a).any (·.isDiverted) = false) {slot : Nat}
    (hf : b.ts.freeKeepSlot = some slot) :
    b.storeSector p = (b.setKeep slot .held).request (.storeSector a) slot
      (slotWrites slot (buildImage a (buildVolume (b.drv a.drive).profile) (readWordList p 128 5)) fullValues) := by
  simp only [Board.storeSector, hi, ha, hw, hd, hf]
  rfl

/-- PATCH_WORD's refusals and its operation, in the order of R139. -/
theorem Board.patchWord_beyond (hk : 127 < u8 p 5) : b.patchWord p = b.deny .range := by
  simp [Board.patchWord, hi, ha, hk]

theorem Board.patchWord_missing (hk : u8 p 5 ≤ 127) (he : b.ts.entry a = none) :
    b.patchWord p = b.deny .notFound := by
  simp [Board.patchWord, hi, ha, he, Nat.not_lt.2 hk]

theorem Board.patchWord_denied (hk : u8 p 5 ≤ 127) {e : KeepEntry} (he : b.ts.entry a = some e)
    (hd : e.damaged = true ∨ e.kind = .diverted) : b.patchWord p = b.deny .denied := by
  simp [Board.patchWord, hi, ha, he, Nat.not_lt.2 hk, hd]

theorem Board.patchWord_read (hk : u8 p 5 ≤ 127) {e : KeepEntry} (he : b.ts.entry a = some e)
    (hd : e.damaged = false) (hn : e.kind ≠ .diverted) :
    b.patchWord p = b.request (.patch a (u8 p 5) (BitVec.ofNat 16 (u16 p 6))) e.slot
      (slotReads e.slot Config.imageCells) := by
  simp [Board.patchWord, hi, ha, he, Nat.not_lt.2 hk, hd, hn]

end

end

theorem readWordList_eq (p : List Byte) (n i : Nat) :
    readWordList p n i = (List.range n).map fun k =>
      BitVec.ofNat 16 (256 * (p.getD (i + 2 * k) 0).toNat + (p.getD (i + 1 + 2 * k) 0).toNat) := by
  induction n generalizing i with
  | zero => rfl
  | succ n ih =>
    rw [readWordList, ih, u16_eq, List.range_succ_eq_map, List.map_cons, List.map_map]
    refine congrArg _ (List.map_congr_left fun k _ => ?_)
    simp only [Function.comp, show i + 2 * k.succ = i + 2 + 2 * k by omega,
      show i + 1 + 2 * k.succ = i + 2 + 1 + 2 * k by omega]

theorem Job.captureAt_survey {j : Job} (h : j.kind = .survey) (k i : Nat) : j.captureAt k i = none := by
  simp [Job.captureAt, h]

theorem Job.captureAt_salvage {j : Job} (h : j.kind = .salvage) (k i : Nat) :
    j.captureAt k i = (j.sectorRec k).bind fun r => (r.caps.filter (·.held))[i]? := by
  simp [Job.captureAt, h]

theorem Job.captureAt_relay {j : Job} (h : j.kind = .relay) (k i : Nat) :
    j.captureAt k i = if i = 0 then (j.relayRec k).bind (·.image) else none := by
  simp [Job.captureAt, h]

/-- Settles O58: the codings, the captures a request may name, and each refusal in its order. -/
theorem storeRequests : Obligations.StoreRequests := by
  unfold Obligations.StoreRequests
  refine ⟨fun p i => ⟨readAddr_none, fun a => readAddr_some⟩, fun j k i => ⟨fun h => j.captureAt_survey h k i,
    fun h => ?_, fun h => ?_⟩, fun p s hq => ?_⟩
  · rw [Job.captureAt_salvage h]
    refine ⟨fun hr => by rw [hr]; rfl, fun r hr => by rw [hr]; rfl⟩
  · rw [Job.captureAt_relay h, Job.captureAt_relay h]
    refine ⟨?_, fun r hr => by rw [hr]; rfl⟩
    rintro (hr | hi)
    · rw [hr]; exact ite_self none
    · exact if_neg (by omega)
  · intro opens refuses byte
    have hans : s.board.answer = none := hq.2.1
    refine ⟨fun h => ?_, fun hi => ⟨fun ha => ?_, fun a hand ha => ⟨fun he => ?_, fun e he => ?_⟩,
      fun hand => ⟨fun hj => ?_, fun j hj => ⟨fun hc => ?_, fun c hc => ?_⟩⟩, fun a hand ha => ?_,
      fun a hand ha => ?_⟩⟩
    · obtain ⟨h1, h2, h3, h4⟩ := s.board.store_notReady (p := p) h
      exact ⟨fun hand => answers_of_reply (f := Board.fetchSector) rfl hand h1,
        fun hand => answers_of_reply (f := Board.fetchCapture) rfl hand h2,
        fun hand => answers_of_reply (f := Board.storeSector) rfl hand h3,
        fun hand => answers_of_reply (f := Board.patchWord) rfl hand h4⟩
    · obtain ⟨h1, h2, h3⟩ := Board.store_range hi ha
      exact ⟨fun hand => answers_of_reply (f := Board.fetchSector) rfl hand h1,
        fun hand => answers_of_reply (f := Board.storeSector) rfl hand h2,
        fun hand => answers_of_reply (f := Board.patchWord) rfl hand h3⟩
    · exact answers_of_reply (f := Board.fetchSector) rfl hand (Board.fetchSector_missing hi ha he)
    · exact defers_of_silent (f := Board.fetchSector) rfl hand (Board.fetchSector_found hi ha he) hans
    · exact answers_of_reply (f := Board.fetchCapture) rfl hand (Board.fetchCapture_noJob hi hj)
    · exact answers_of_reply (f := Board.fetchCapture) rfl hand (Board.fetchCapture_missing hi hj hc)
    · exact defers_of_silent (f := Board.fetchCapture) rfl hand (Board.fetchCapture_found hi hj hc) hans
    · refine ⟨fun hw => ?_, fun hw hd => ?_, fun hw hd hf => ?_, fun slot hw hd hf => ?_⟩
      · exact answers_of_reply (f := Board.storeSector) rfl hand (Board.storeSector_beyond hi ha hw)
      · exact answers_of_reply (f := Board.storeSector) rfl hand (Board.storeSector_diverted hi ha hw hd)
      · exact answers_of_reply (f := Board.storeSector) rfl hand (Board.storeSector_full hi ha hw hd hf)
      · have hb := Board.storeSector_slot hi ha hw hd hf
        rw [readWordList_eq] at hb
        exact defers_of_silent (f := Board.storeSector) rfl hand hb hans
    · refine ⟨fun hk => ?_, fun hk he => ?_, fun e hk he => ⟨fun hd => ?_, fun hd hn => ?_⟩⟩
      · exact answers_of_reply (f := Board.patchWord) rfl hand (Board.patchWord_beyond hi ha hk)
      · exact answers_of_reply (f := Board.patchWord) rfl hand (Board.patchWord_missing hi ha hk he)
      · exact answers_of_reply (f := Board.patchWord) rfl hand (Board.patchWord_denied hi ha hk he hd)
      · have hb := Board.patchWord_read hi ha hk he hd hn
        rw [u16_eq] at hb
        exact defers_of_silent (f := Board.patchWord) rfl hand hb hans

/-! ### A diversion absorbed (R38, R40) -/

/-- Settles O22: the image built, its writes requested, and a differing check word told. -/
theorem absorptionComplete : Obligations.AbsorptionComplete := by
  unfold Obligations.AbsorptionComplete
  intro d data check dv s hd hg hc x img op
  refine completes_of_onBoard (f := fun b => b.absorb d data check) rfl ?_
  unfold Board.absorb
  rw [hd]
  dsimp only
  rw [if_pos (by rw [hg, hc]; rfl)]
  by_cases hsum : img.getD 130 0 = check
  · rw [if_pos hsum, if_pos hsum, List.append_nil]
    rfl
  · rw [if_neg hsum, if_neg hsum]
    rfl

end Sys2Proof.Machine
end

section
/-! PROOFS. Sector pulses at a drive with no slot open: what opens for the live path (O24, O28). -/

namespace Sys2Proof.Machine

/-! ### A board with one drive replaced -/

/-- The board with one drive's records replaced. -/
def Board.setDrv (b : Board) (d : DriveNo) (x : Drive) : Board := { b with drives := b.drives.set d x }

section
variable (b : Board) (d : DriveNo) (x y : Drive)

@[simp] theorem Board.setDrv_drv : (b.setDrv d x).drv d = x := Quad.get_set_same _ _ _

@[simp] theorem Board.setDrv_setDrv : (b.setDrv d x).setDrv d y = b.setDrv d y :=
  congrArg (fun q => { b with drives := q }) (Quad.set_set _ _ _ _)

@[simp] theorem Board.setDrv_self : b.setDrv d (b.drv d) = b :=
  congrArg (fun q => { b with drives := q }) (Quad.set_get _ _)

theorem Board.modPins_eq (f : Pins → Pins) :
    b.modPins d f = b.setDrv d { b.drv d with pins := f (b.drv d).pins } := rfl

theorem Board.modRt_eq (f : Tracker → Tracker) :
    b.modRt d f = b.setDrv d { b.drv d with rt := f (b.drv d).rt } := rfl

theorem Board.modRc_eq (f : Channel → Channel) :
    b.modRc d f = b.setDrv d { b.drv d with rc := f (b.drv d).rc } := rfl

theorem Board.modLp_eq (f : LivePath → LivePath) :
    b.modLp d f = b.setDrv d { b.drv d with lp := f (b.drv d).lp } := rfl

theorem Board.modDa_eq (f : Arbiter → Arbiter) :
    b.modDa d f = b.setDrv d { b.drv d with da := f (b.drv d).da } := rfl

end

theorem mem_putKeep {slot : Nat} {st : KeepState} {p : Nat × KeepState} {l : List (Nat × KeepState)}
    (h : p ∈ putKeep slot st l) : p = (slot, st) ∨ p ∈ l := by
  induction l with
  | nil => exact .inl (List.mem_singleton.1 h)
  | cons q us ih =>
    unfold putKeep at h
    split_ifs at h
    · exact List.mem_cons.1 h
    · exact (List.mem_cons.1 h).imp_right (List.mem_cons_of_mem q)
    · obtain rfl | h := List.mem_cons.1 h
      · exact .inr List.mem_cons_self
      · exact (ih h).imp_right (List.mem_cons_of_mem q)

/-! ### The pulse (R42, R63, R79) -/

/-- A drive's records at a sector pulse that closes no slot: the line that comes with it (log entry 35), the position
counted, the write path disarmed. -/
def Drive.pulsed (x : Drive) (wp : Bool) : Drive :=
  { x with pins := { x.pins with writeProtect := wp }, rt := x.rt.advance x.profile.sectors,
           da := { x.da with writing := none, writeImage := [] } }

/-- The number of the slot that opens. -/
def Drive.opening (x : Drive) : Nat := (x.rt.advance x.profile.sectors).position

/-- A pulse at a drive whose channel is idle and whose live path has no slot open. -/
theorem Board.sectorPulse_closed {b : Board} {d : DriveNo} (wp : Bool) (hi : (b.drv d).rc.activity = .idle)
    (hp : (b.drv d).lp.cmd.phase ≠ .transfer) :
    b.sectorPulse d wp =
      let x := b.drv d
      let b3 := b.setDrv d (x.pulsed wp)
      let b4 := if x.da.owner = .enginePass && !x.passEnds then b3.openPassSlot d x.opening else b3
      let b5 := b4.openSlot d x.opening
      if x.passEnds then if x.da.stopAtEnd then b5.passStop d else b5.passEnd d x.passFull else b5 := by
  unfold Board.sectorPulse
  extract_lets x b1
  have h1 : b1 = b.setDrv d { x with pins := { x.pins with writeProtect := wp } } := by
    simp only [b1, Board.modPins_eq]
    unfold Board.reportSlot
    rw [Board.setDrv_drv]
    exact if_pos hi
  have h2 : b1.closeSlot d = (b1, false) := by
    unfold Board.closeSlot
    rw [h1, Board.setDrv_drv]
    exact if_pos hp
  rw [h2]
  dsimp only
  have h3 : (b1.modDa d fun da => { da with writing := none, writeImage := [] }).modRt d (fun rt =>
      rt.advance x.profile.sectors) = b.setDrv d (x.pulsed wp) := by
    simp only [h1, Board.modDa_eq, Board.modRt_eq, Board.setDrv_drv, Board.setDrv_setDrv]
    rfl
  rw [h3, Board.setDrv_drv]
  rfl

/-- A pulse at a drive in LIVE_BUSY whose live command waits for its slot: the slot opens (R19). -/
theorem Board.sectorPulse_awaiting {b : Board} {d : DriveNo} (wp : Bool) (hi : (b.drv d).rc.activity = .idle)
    (ho : (b.drv d).da.owner = .liveBusy) (hp : (b.drv d).lp.cmd.phase = .awaitingSlot) :
    b.sectorPulse d wp = (b.setDrv d ((b.drv d).pulsed wp)).openSlot d (b.drv d).opening := by
  rw [Board.sectorPulse_closed wp hi (by rw [hp]; decide)]
  simp [Drive.passEnds, ho]

/-! ### A WRITE's slot (R13, R34..R37) -/

section
variable {b : Board} {d : DriveNo}

theorem Board.openSlot_write {n : Fin 16} {k : Nat} (hp : (b.drv d).lp.cmd.phase = .awaitingSlot)
    (hc : (b.drv d).lp.cmd.cmd = some (.write n)) (hk : (b.drv d).lp.cmd.target.sector.val = k) :
    b.openSlot d k = b.openWrite d := by
  unfold Board.openSlot
  simp only [hp, hc, hk, and_self, if_true]

theorem Board.openSlot_read {n : Fin 16} {k : Nat} (hp : (b.drv d).lp.cmd.phase = .awaitingSlot)
    (hc : (b.drv d).lp.cmd.cmd = some (.read n)) (hk : (b.drv d).lp.cmd.target.sector.val = k) :
    b.openSlot d k = b.openRead d := by
  unfold Board.openSlot
  simp only [hp, hc, hk, and_self, if_true]

theorem Board.transfer_eq (b : Board) (d : DriveNo) (c : Course) :
    b.transfer d c = b.setDrv d { b.drv d with
      lp := { (b.drv d).lp with cmd := { (b.drv d).lp.cmd with phase := .transfer, course := c } } } := rfl

theorem Board.refuseWrite_eq (b : Board) (d : DriveNo) :
    b.refuseWrite d = b.setDrv d { b.drv d with
      lp := { (b.drv d).lp with
        wpOver := true, cmd := { (b.drv d).lp.cmd with phase := .transfer, course := .refuse } } } := by
  unfold Board.refuseWrite
  rw [Board.transfer_eq, Board.modLp_eq, Board.setDrv_drv, Board.setDrv_setDrv]

theorem Board.startDivert_eq (hf : b.abandonFill d = b) (a : Addr) (slot : Nat) :
    b.startDivert d a slot = b.setDrv d { b.drv d with
      lp := { (b.drv d).lp with
        cmd := { (b.drv d).lp.cmd with phase := .transfer, course := .divert },
        buf := { state := .absorbing, addr := a, image := [] },
        diversion := some { target := a, slot := slot, volume := buildVolume (b.drv d).profile,
                            header := buildHeader a (buildVolume (b.drv d).profile), gate := false,
                            committing := false, image := [], cleared := false } } } := by
  unfold Board.startDivert
  rw [hf, Board.transfer_eq, Board.modLp_eq, Board.setDrv_drv, Board.setDrv_setDrv]

variable {x : Drive} (hx : b.drv d = x)
include hx

theorem Board.openWrite_beyond (h : x.lp.cmd.beyond = true) :
    b.openWrite d = if (b.trackJob x.lp.cmd.target.track).isSome then b.refuseWrite d else b.transfer d .plain := by
  unfold Board.openWrite
  rw [hx]
  exact if_pos h

section
variable (h : x.lp.cmd.beyond = false)
include h

/-- With diversion off, or a commit still under way, a guarded WRITE is under the diversion-off rule (R36). -/
theorem Board.openWrite_off (hoff : x.lp.divert = false ∨ x.lp.diversion ≠ none) :
    b.openWrite d = if x.pins.writeProtect then b.transfer d .protect
      else if b.guarded x.lp.cmd.target = false then b.transfer d .pass
      else b.diversionOff d x.lp.cmd.target := by
  have hn : (x.lp.divert && x.lp.diversion.isNone) = false := by
    obtain hd | hd := hoff
    · rw [hd]; rfl
    · rw [Option.isNone_eq_false_iff.2 (Option.isSome_iff_ne_none.2 hd), Bool.and_false]
  unfold Board.openWrite
  simp only [hx, h, hn, Bool.not_eq_true', Bool.false_eq_true, if_false]

variable (hd : x.lp.divert = true) (hn : x.lp.diversion = none)
include hd hn

/-- With diversion on a guarded WRITE is diverted to the slot of its entry (R37). -/
theorem Board.openWrite_entry {e : KeepEntry} (he : b.ts.entry x.lp.cmd.target = some e) :
    b.openWrite d = if x.pins.writeProtect then b.transfer d .protect
      else if b.guarded x.lp.cmd.target = false then b.transfer d .pass
      else b.startDivert d x.lp.cmd.target e.slot := by
  unfold Board.openWrite
  simp [hx, h, hd, hn, he]

/-- With no entry of its address it is diverted to the lowest free keep slot, which is held (R37). -/
theorem Board.openWrite_slot (he : b.ts.entry x.lp.cmd.target = none) {slot : Nat}
    (hf : b.ts.freeKeepSlot = some slot) :
    b.openWrite d = if x.pins.writeProtect then b.transfer d .protect
      else if b.guarded x.lp.cmd.target = false then b.transfer d .pass
      else (b.setKeep slot .held).startDivert d x.lp.cmd.target slot := by
  unfold Board.openWrite
  simp [hx, h, hd, hn, he, hf]

/-- With no free keep slot either it is under the diversion-off rule (R36). -/
theorem Board.openWrite_full (he : b.ts.entry x.lp.cmd.target = none) (hf : b.ts.freeKeepSlot = none) :
    b.openWrite d = if x.pins.writeProtect then b.transfer d .protect
      else if b.guarded x.lp.cmd.target = false then b.transfer d .pass
      else b.diversionOff d x.lp.cmd.target := by
  unfold Board.openWrite
  simp [hx, h, hd, hn, he, hf]

end

end

/-- Settles O28: the pulse leaves the drive as pulsed, and the slot opens for the WRITE by R34's order. -/
theorem writeSlotOpens : Obligations.WriteSlotOpens := by
  unfold Obligations.WriteSlotOpens
  intro d wp n s x a rt opens put divert off hi ho hp hc hk
  have hx : (s.board.setDrv d (x.pulsed wp)).drv d = x.pulsed wp := Board.setDrv_drv _ _ _
  have hstep : s.board.sectorPulse d wp = (s.board.setDrv d (x.pulsed wp)).openWrite d := by
    rw [Board.sectorPulse_awaiting wp hi ho hp]
    exact Board.openSlot_write (by rw [hx]; exact hp) (by rw [hx]; exact hc) (by rw [hx]; exact hk)
  have refuse_eq : (s.board.setDrv d (x.pulsed wp)).refuseWrite d =
      put (opens .refuse { x.lp with wpOver := true }) := by
    rw [Board.refuseWrite_eq, hx, Board.setDrv_setDrv]; rfl
  have transfer_eq (c : Course) : (s.board.setDrv d (x.pulsed wp)).transfer d c = put (opens c x.lp) := by
    rw [Board.transfer_eq, hx, Board.setDrv_setDrv]; rfl
  have off_eq : (s.board.setDrv d (x.pulsed wp)).diversionOff d a = off := by
    unfold Board.diversionOff
    rw [refuse_eq, transfer_eq]
    rfl
  refine ⟨fun h => ?_, fun h hdiv => ?_, fun h hdiv hops hkeep => ?_⟩
  all_goals
    refine completes_of_onBoard (f := fun b => b.sectorPulse d wp) rfl (hstep.trans ?_)
  · rw [Board.openWrite_beyond hx h, refuse_eq, transfer_eq]
    rfl
  · rw [Board.openWrite_off hx h (.inr hdiv), transfer_eq, transfer_eq]
    exact congrArg (fun z => if wp then _ else if s.board.guarded a = false then _ else z) off_eq
  · have fill_kept : (s.board.setDrv d (x.pulsed wp)).abandonFill d = s.board.setDrv d (x.pulsed wp) :=
      Board.abandonFill_none hops hkeep
    cases hd : x.lp.divert with
    | false =>
      rw [Board.openWrite_off hx h (.inl hd), transfer_eq, transfer_eq]
      exact congrArg (fun z => if wp then _ else if s.board.guarded a = false then _ else z) off_eq
    | true =>
      cases he : s.board.ts.entry a with
      | some e =>
        rw [Board.openWrite_entry hx h hd hdiv he, transfer_eq, transfer_eq, Board.startDivert_eq fill_kept, hx,
          Board.setDrv_setDrv]
        rfl
      | none =>
        cases hf : s.board.ts.freeKeepSlot with
        | some slot =>
          rw [Board.openWrite_slot hx h hd hdiv he hf, transfer_eq, transfer_eq]
          have held_kept : ((s.board.setDrv d (x.pulsed wp)).setKeep slot .held).abandonFill d =
              (s.board.setDrv d (x.pulsed wp)).setKeep slot .held := by
            refine Board.abandonFill_none hops fun p hp hdr => ?_
            obtain rfl | hp := mem_putKeep hp
            · cases hdr
            · exact hkeep p hp hdr
          rw [Board.startDivert_eq held_kept]
          have hx' : ((s.board.setDrv d (x.pulsed wp)).setKeep slot .held).drv d = x.pulsed wp := hx
          have hset (y : Drive) : ((s.board.setDrv d (x.pulsed wp)).setKeep slot .held).setDrv d y =
              (s.board.setDrv d y).setKeep slot .held :=
            congrArg (·.setKeep slot .held) (s.board.setDrv_setDrv d _ y)
          rw [hx', hset]
          rfl
        | none =>
          rw [Board.openWrite_full hx h hd hdiv he hf, transfer_eq, transfer_eq]
          exact congrArg (fun z => if wp then _ else if s.board.guarded a = false then _ else z) off_eq

end Sys2Proof.Machine
end

section
/-! PROOFS. The read channel: the hunt for the sync mark, the words of a slot and their qualities (O30, O31). -/

namespace Sys2Proof.Machine

/-! ### The hunt (R3, R55, R58) -/

theorem mem_positions {f : CellFrame} {t : Nat} : t ∈ positions f ↔ t < 32 ∧ f.getLsbD t = true := by
  simp [positions]

theorem cellBit_iff (s : Int) (f : CellFrame) :
    cellBit s f = true ↔ ∃ t : Nat, t < 32 ∧ f.getLsbD t = true ∧ 8 + s ≤ (t : Int) ∧ (t : Int) ≤ 23 + s := by
  unfold cellBit windowAt
  simp [List.filter_eq_nil_iff, mem_positions]

/-- The run of zeros after one more cell. -/
def nextRun (s : Int) (run : Nat) (f : CellFrame) : Nat := if cellBit s f then 0 else min 24 (run + 1)

theorem runAfter_cons (s : Int) (run : Nat) (f : CellFrame) (fs : List CellFrame) :
    runAfter s run (f :: fs) = runAfter s (nextRun s run f) fs := rfl

/-- The frames before a sync cell: at least 24 zeros end them, and no cell among them follows 24 zeros with a 1. -/
def leadsToSync (s : Int) (run : Nat) (before : List CellFrame) : Prop :=
  24 ≤ runAfter s run before ∧
    ∀ (b1 b2 : List CellFrame) (g : CellFrame), before = b1 ++ g :: b2 →
      cellBit s g = true → runAfter s run b1 < 24

theorem leadsToSync_nil (s : Int) (run : Nat) : leadsToSync s run [] ↔ 24 ≤ run :=
  ⟨fun h => h.1, fun h => ⟨h, fun b1 b2 g e => by simp at e⟩⟩

theorem leadsToSync_cons (s : Int) (run : Nat) (f : CellFrame) (fs : List CellFrame) :
    leadsToSync s run (f :: fs) ↔ (cellBit s f = true → run < 24) ∧ leadsToSync s (nextRun s run f) fs := by
  unfold leadsToSync
  rw [runAfter_cons]
  constructor
  · rintro ⟨hrun, hno⟩
    exact ⟨hno [] fs f rfl, hrun, fun b1 b2 g e => by
      have := hno (f :: b1) b2 g (by rw [e]; rfl)
      rwa [runAfter_cons] at this⟩
  · rintro ⟨hf, hrun, hno⟩
    refine ⟨hrun, fun b1 b2 g e hg => ?_⟩
    cases b1 with
    | nil => cases e; exact hf hg
    | cons x b1 =>
      obtain ⟨rfl, e'⟩ := List.cons.inj e
      exact hno b1 b2 g e' hg

theorem syncCell_cons (s : Int) (run n : Nat) (f : CellFrame) (fs : List CellFrame) :
    syncCell s run n (f :: fs) =
      if cellBit s f = true ∧ 24 ≤ run then some (n + 1) else syncCell s (nextRun s run f) (n + 1) fs := by
  rw [syncCell]
  unfold nextRun
  by_cases hf : cellBit s f = true
  · simp only [hf, if_true, true_and]
  · simp only [hf, Bool.false_eq_true, if_false, false_and]

/-- Where the hunt ends: at the first 1 after at least 24 zeros. -/
theorem syncCell_iff (s : Int) (run n m : Nat) (frames : List CellFrame) :
    syncCell s run n frames = some m ↔
      ∃ (before after : List CellFrame) (f : CellFrame),
        frames = before ++ f :: after ∧ m = n + before.length + 1 ∧ cellBit s f = true ∧ leadsToSync s run before := by
  induction frames generalizing run n with
  | nil => simp [syncCell]
  | cons g fs ih =>
    have later : (∃ (before after : List CellFrame) (f : CellFrame),
        g :: fs = before ++ f :: after ∧ m = n + before.length + 1 ∧ cellBit s f = true ∧ leadsToSync s run before) ↔
        (m = n + 1 ∧ cellBit s g = true ∧ 24 ≤ run) ∨
          (cellBit s g = true → run < 24) ∧ syncCell s (nextRun s run g) (n + 1) fs = some m := by
      rw [ih]
      constructor
      · rintro ⟨before, after, f, e, hm, hf, hl⟩
        cases before with
        | nil => cases e; exact .inl ⟨hm, hf, (leadsToSync_nil s run).1 hl⟩
        | cons x before =>
          obtain ⟨rfl, e'⟩ := List.cons.inj e
          obtain ⟨hx, hl⟩ := (leadsToSync_cons s run g before).1 hl
          exact .inr ⟨hx, before, after, f, e', by rw [hm, List.length_cons]; omega, hf, hl⟩
      · rintro (⟨hm, hg, hrun⟩ | ⟨hg, before, after, f, e, hm, hf, hl⟩)
        · exact ⟨[], fs, g, rfl, hm, hg, (leadsToSync_nil s run).2 hrun⟩
        · exact ⟨g :: before, after, f, by rw [e]; rfl, by rw [hm, List.length_cons]; omega, hf,
            (leadsToSync_cons s run g before).2 ⟨hg, hl⟩⟩
    rw [later, syncCell_cons]
    by_cases hg : cellBit s g = true ∧ 24 ≤ run
    · rw [if_pos hg]
      simp [hg.1, Nat.not_lt.2 hg.2, hg.2, eq_comm]
    · rw [if_neg hg]
      have hrun : cellBit s g = true → run < 24 := fun h => Nat.not_le.1 fun hr => hg ⟨h, hr⟩
      exact ⟨fun h => .inr ⟨hrun, h⟩, fun h => h.elim (fun h' => absurd h'.2 hg) (·.2)⟩

/-- Settles O30. -/
theorem syncHunt : Obligations.SyncHunt := by
  unfold Obligations.SyncHunt
  refine ⟨cellBit_iff, ?_, fun shift run n m frames _ => syncCell_iff shift run n m frames⟩
  intro d frames s x put ha
  refine ⟨fun hn hs => ?_, fun hn hs => ?_⟩
  · refine completes_of_onBoard (f := fun b => b.modRc d fun rc => rc.syncFound frames) rfl ?_
    have hf : x.rc.syncFound frames = { x.rc with
        activity := .reading, run := 24, cells := x.rc.cells + frames.length, wordIndex := 0,
        check := 0, lastFrame := frames.getLastD x.rc.lastFrame } := if_pos ⟨ha, hn, hs⟩
    rw [Board.modRc_eq, hf]
    rfl
  · refine completes_of_onBoard (f := fun b => b.modRc d fun rc => rc.huntLimit frames) rfl ?_
    have hf : x.rc.huntLimit frames = { x.rc with
        activity := .complete, found := false, cells := 400,
        run := runAfter x.rc.slotShift x.rc.run frames,
        lastFrame := frames.getLastD x.rc.lastFrame } := if_pos ⟨ha, hn, hs⟩
    rw [Board.modRc_eq, hf]
    rfl

/-! ### The margins of a cell (R54..R56) -/

/-- The transitions of a cell between two positions. -/
def between (lo hi : Int) (f : CellFrame) : List Nat :=
  (List.range 32).filter fun t => f.getLsbD t ∧ lo ≤ (t : Int) ∧ (t : Int) ≤ hi

theorem windowAt_eq (s : Int) (f : CellFrame) : windowAt s f = between (8 + s) (23 + s) f := by
  unfold windowAt positions between
  rw [List.filter_filter]
  refine List.filter_congr fun t _ => ?_
  simp [and_comm]

/-- Positions as integers, in the form a coercion under a list takes. -/
theorem bind_cast_eq_map (l : List Nat) : (do let t ← l; pure (t : Int)) = l.map fun t : Nat => (t : Int) :=
  bind_pure_comp _ l

/-- The margins of a cell's strays, the strays named by their positions as integers. -/
theorem strayMargins_eq (s : Int) (f : CellFrame) :
    (straysAt s f).map (strayMargin s) =
      ((((between 4 27 f).map fun t : Nat => (t : Int)).filter fun t => t < 8 + s ∨ 23 + s < t).map fun t =>
        min 7 ((if t < 8 + s then 8 + s - t else t - (23 + s)) - 1).toNat) := by
  rw [List.filter_map, List.map_map]
  refine congrArg (List.map (strayMargin s)) ?_
  unfold straysAt positions between
  rw [List.filter_filter, List.filter_filter]
  refine List.filter_congr fun t _ => ?_
  rw [Bool.eq_iff_iff]
  simp only [Function.comp, Bool.and_eq_true, decide_eq_true_eq]
  constructor
  · rintro ⟨⟨h1, h2, h3⟩, hb⟩; exact ⟨by omega, hb, by omega, by omega⟩
  · rintro ⟨h1, hb, h2, h3⟩; exact ⟨⟨by omega, by omega, by omega⟩, hb⟩

theorem clockCount_eq (before f : CellFrame) :
    clockCount before f = (between 28 31 before).length + (between 0 3 f).length := by
  unfold clockCount positions between
  rw [List.countP_eq_length_filter, List.countP_eq_length_filter, List.filter_filter, List.filter_filter]
  congr 2
  all_goals
    refine List.filter_congr fun t ht => ?_
    have := List.mem_range.1 ht
    rw [Bool.eq_iff_iff]
    simp only [Bool.and_eq_true, decide_eq_true_eq]
  · exact ⟨fun ⟨h, hb⟩ => ⟨hb, by omega, by omega⟩, fun ⟨hb, h1, h2⟩ => ⟨by omega, hb⟩⟩
  · exact ⟨fun ⟨h, hb⟩ => ⟨hb, by omega, by omega⟩, fun ⟨hb, h1, h2⟩ => ⟨by omega, hb⟩⟩

/-! ### Words and qualities (R2, R57, R59) -/

/-- The frame before the n-th cell of a list of frames. -/
def frameAt (before : CellFrame) (fs : List CellFrame) (n : Nat) : CellFrame := (before :: fs).getD n 0

theorem wordQuality_eq (s : Int) (before : CellFrame) (fs : List CellFrame) (q : Nat) :
    wordQuality s before fs q =
      ((List.range fs.length).map fun c =>
        cellMargin s (frameAt before fs c) (frameAt before fs (c + 1))).foldl min q := by
  induction fs generalizing before q with
  | nil => rfl
  | cons f fs ih =>
    rw [wordQuality, ih, List.length_cons, List.range_succ_eq_map, List.map_cons, List.foldl_cons, List.map_map]
    rfl

theorem frameAt_take (before : CellFrame) (fs : List CellFrame) {n c : Nat} (h : c ≤ n) :
    frameAt before (fs.take n) c = frameAt before fs c := by
  unfold frameAt
  cases c with
  | zero => rfl
  | succ c => simp [show c < n by omega]

theorem frameAt_drop (before : CellFrame) {fs : List CellFrame} {n : Nat} (h : n ≤ fs.length) (hn : 0 < n) (c : Nat) :
    frameAt ((fs.take n).getLastD before) (fs.drop n) c = frameAt before fs (n + c) := by
  unfold frameAt
  cases c with
  | zero =>
    obtain ⟨m, rfl⟩ : ∃ m, n = m + 1 := ⟨n - 1, by omega⟩
    simp only [List.getD_cons_zero, Nat.add_zero, List.getD_cons_succ]
    rw [List.getLastD_eq_getLast?, List.getLast?_eq_getElem?, List.length_take, Nat.min_eq_left h, Nat.add_sub_cancel,
      List.getElem?_take_of_lt (by omega), List.getD_eq_getElem?_getD, List.getElem?_eq_getElem (by omega)]
    rfl
  | succ c =>
    rw [← Nat.add_assoc, List.getD_cons_succ, List.getD_cons_succ]
    simp

/-- The words of full groups of 16 frames, each with the least margin of its cells. -/
theorem readWords_eq (s : Int) (n : Nat) (before : CellFrame) (fs : List CellFrame) (h : fs.length = 16 * n) :
    readWords s n before fs = (List.range n).map fun i =>
      (wordOfBits (((fs.drop (16 * i)).take 16).map (cellBit s)),
        ((List.range 16).map fun c =>
          cellMargin s (frameAt before fs (16 * i + c)) (frameAt before fs (16 * i + c + 1))).foldl min 7) := by
  induction n generalizing before fs with
  | zero => rfl
  | succ n ih =>
    have hown : (fs.take 16).length = 16 := by rw [List.length_take, h]; omega
    rw [readWords, ih _ _ (by rw [List.length_drop, h]; omega), @List.range_succ_eq_map n, List.map_cons, List.map_map,
      wordQuality_eq, hown]
    refine congrArg₂ List.cons (Prod.ext rfl ?_) (List.map_congr_left fun i _ => Prod.ext ?_ ?_)
    · refine congrArg (List.foldl min 7) (List.map_congr_left fun c hc => ?_)
      have := List.mem_range.1 hc
      rw [frameAt_take _ _ (by omega), frameAt_take _ _ (by omega)]
      simp
    · simp only [Function.comp, List.drop_drop, show 16 + 16 * i = 16 * i.succ by omega]
    · refine congrArg (List.foldl min 7) (List.map_congr_left fun c _ => ?_)
      rw [frameAt_drop _ (by omega) (by omega), frameAt_drop _ (by omega) (by omega)]
      simp only [show 16 + (16 * i + c) = 16 * i.succ + c by omega,
        show 16 + (16 * i + c + 1) = 16 * i.succ + c + 1 by omega]

/-! ### The words taken (R59, R60, R64) -/

theorem Channel.receive_none {rc : Channel} (h : rc.slotBuf = none) (ws : List (Word × Nat)) : rc.receive ws = rc := by
  simp [Channel.receive, h]

theorem Channel.receive_some {rc : Channel} {i : Fin 2} (h : rc.slotBuf = some i) (ws : List (Word × Nat)) :
    rc.receive ws = rc.setBuf i { rc.buf i with
      words := (rc.buf i).words ++ ws.map (·.1), quals := (rc.buf i).quals ++ ws.map (·.2) } := by
  simp [Channel.receive, h]

theorem Channel.receive_header (rc : Channel) (ws : List (Word × Nat)) :
    (rc.receive ws).setup = rc.setup ∧ (rc.receive ws).header = rc.header ∧ (rc.receive ws).slotNo = rc.slotNo := by
  cases h : rc.slotBuf with
  | none => rw [Channel.receive_none h]; exact ⟨rfl, rfl, rfl⟩
  | some i =>
    rw [Channel.receive_some h]
    fin_cases i <;> exact ⟨rfl, rfl, rfl⟩

theorem Channel.headerRead_eq {rc : Channel} {frames : List CellFrame} {cyl head : Nat}
    (he : rc.setup.expects = some (cyl, head)) (ha : rc.activity = .reading) (hw : rc.wordIndex = 0)
    (hl : frames.length = 32) {w : Nat → Word × Nat}
    (hr : readWords rc.slotShift 2 rc.lastFrame frames = (List.range 2).map w) (p : Profile) :
    rc.headerRead p frames = { rc.receive ((List.range 2).map w) with
      check := (w 0).1.rotateLeft 1 + (w 1).1, wordIndex := 2, lastFrame := frames.getLastD rc.lastFrame,
      header := some (headerTest p cyl head rc.slotNo (readHeader (w 0).1 (w 1).1),
        readHeader (w 0).1 (w 1).1) } := by
  have hsum : rotSum [(w 0).1, (w 1).1] = (w 0).1.rotateLeft 1 + (w 1).1 := by
    simp [rotSum, rotAdd]
  unfold Channel.headerRead
  rw [he]
  dsimp only
  rw [if_pos ⟨ha, hw, hl⟩, hr, ← hsum]
  rfl

theorem Channel.imageRead_eq {rc : Channel} {frames : List CellFrame} (ha : rc.activity = .reading)
    (hw : rc.wordIndex = 2) (hl : frames.length = 2064) {w : Nat → Word × Nat}
    (hr : readWords rc.slotShift 129 rc.lastFrame frames = (List.range 129).map w) (now : Time) :
    let sum := ((List.range 128).map fun i => (w i).1).foldl rotAdd rc.check
    rc.imageRead now frames = { rc.receive ((List.range 129).map w) with
      check := sum, wordIndex := 130, lastFrame := frames.getLastD rc.lastFrame, activity := .complete,
      found := true, sound := sum = (w 128).1, capTime := now } := by
  intro sum
  have hwords : (((List.range 129).map w).map (·.1)).take 128 = (List.range 128).map fun i => (w i).1 := by
    rw [List.map_map, ← List.map_take]
    rfl
  have hlast : (((List.range 129).map w).map (·.1)).getD 128 0 = (w 128).1 := by
    rw [List.map_map]
    exact getD_map_range 0 _ (by omega)
  unfold Channel.imageRead
  rw [if_pos ⟨ha, hw, hl⟩]
  dsimp only
  rw [hr, hwords, hlast]

/-- When a completed image hands a header resync to the tracker (R50). -/
theorem Channel.resync_eq {rc : Channel} {cyl head : Nat} {o : HeaderOutcome} {h : Header}
    (he : rc.setup.expects = some (cyl, head)) (hh : rc.header = some (o, h)) (p : Profile) :
    rc.resync p = if rc.sound = true ∧ h.cyl = cyl ∧ h.head = head ∧ h.format = 0 ∧ h.sector < p.sectors ∧
      h.sector ≠ rc.slotNo then some h.sector else none := by
  unfold Channel.resync
  rw [he, hh]
  simp only [Bool.and_eq_true, decide_eq_true_eq, and_assoc]

section
variable {b : Board} {d : DriveNo} {frames : List CellFrame} (ha : (b.drv d).rc.activity = .reading)
  (hw : (b.drv d).rc.wordIndex = 2) (hl : frames.length = 2064) {rc : Channel}
  (hr : (b.drv d).rc.imageRead b.now frames = rc)
include ha hw hl hr

theorem Board.imageComplete_quiet (h : rc.resync (b.drv d).profile = none) :
    b.imageComplete d frames = b.setDrv d { b.drv d with rc := rc } := by
  unfold Board.imageComplete
  dsimp only
  rw [if_pos ⟨ha, hw, hl⟩, Board.modRc_eq, hr, Board.setDrv_drv]
  simp only [h]

theorem Board.imageComplete_resync {k : Nat} (h : rc.resync (b.drv d).profile = some k) :
    b.imageComplete d frames = (b.setDrv d { b.drv d with rc := rc }).takeResync d k := by
  unfold Board.imageComplete
  dsimp only
  rw [if_pos ⟨ha, hw, hl⟩, Board.modRc_eq, hr, Board.setDrv_drv]
  simp only [h]

end

theorem Board.takeResync_late {b : Board} {d : DriveNo} {k : Nat}
    (h : (b.drv d).rt.position ≠ (b.drv d).rc.slotNo) : b.takeResync d k = b := if_neg h

theorem Board.takeResync_eq {b : Board} {d : DriveNo} {k : Nat} (h : (b.drv d).rt.position = (b.drv d).rc.slotNo) :
    let x := b.drv d
    let slips := (x.rt.slipCount + 1) % 65536
    b.takeResync d k =
      { b.setDrv d { x with rt := { x.rt with position := k, slipCount := slips } } with
        out := b.out ++ [⟨some d, b.now, .slip true x.rt.position k none x.rt.revCount slips⟩] } := by
  unfold Board.takeResync
  exact if_pos h

/-- Settles O31: the words of the frames by readWords_eq, then what the channel and the tracker make of them. -/
theorem imageRead : Obligations.ImageRead := by
  unfold Obligations.ImageRead
  intro d frames cyl head s x shift word between' margin frame quality taken put ha he
  have margin_eq (y f : CellFrame) : cellMargin shift y f = margin y f := by
    unfold cellMargin dataMargin
    rw [clockCount_eq, strayMargins_eq, windowAt_eq, ← bind_cast_eq_map]
    rfl
  have frame_eq (n : Nat) : frameAt x.rc.lastFrame frames n = frame n := by
    cases n <;> rfl
  have words_eq (n : Nat) (hn : frames.length = 16 * n) :
      readWords x.rc.slotShift n x.rc.lastFrame frames = (List.range n).map fun i => (word i, quality i) := by
    rw [readWords_eq _ _ _ _ hn]
    simp only [frame_eq, margin_eq, shift]
    rfl
  have taken_eq (n : Nat) : x.rc.receive ((List.range n).map fun i => (word i, quality i)) = taken n x.rc := by
    have hw : ((List.range n).map fun i => (word i, quality i)).map (·.1) = (List.range n).map word := List.map_map
    have hq : ((List.range n).map fun i => (word i, quality i)).map (·.2) = (List.range n).map quality := List.map_map
    dsimp only [taken]
    split
    all_goals rename_i hs
    · exact Channel.receive_none hs _
    · rw [Channel.receive_some hs, hw, hq]; rfl
    · rw [Channel.receive_some hs, hw, hq]; rfl
  refine ⟨fun hw hl => ?_, fun o h hw hl hh => ?_⟩
  · intro h
    refine completes_of_onBoard (f := fun b => b.modRc d fun rc => rc.headerRead (b.drv d).profile frames) rfl ?_
    rw [Board.modRc_eq]
    dsimp only
    rw [Channel.headerRead_eq he ha hw hl (words_eq 2 hl) _, taken_eq]
    rfl
  · intro sum read resync
    have hread : x.rc.imageRead s.board.now frames = read := by
      rw [Channel.imageRead_eq ha hw hl (words_eq 129 hl), taken_eq]
    have hkeep := x.rc.receive_header ((List.range 129).map fun i => (word i, quality i))
    rw [taken_eq] at hkeep
    obtain ⟨hsetup, hheader, hslot⟩ := hkeep
    have hres := Channel.resync_eq (rc := read) (hsetup ▸ he) (hheader.trans hh) x.profile
    have hcond : (read.sound = true ∧ h.cyl = cyl ∧ h.head = head ∧ h.format = 0 ∧ h.sector < x.profile.sectors ∧
        h.sector ≠ read.slotNo) ∧ x.rt.position = x.rc.slotNo ↔ resync := by
      have hsl : read.slotNo = x.rc.slotNo := hslot
      rw [hsl, show read.sound = true ↔ sum = word 128 from decide_eq_true_iff]
      simp only [resync, and_assoc]
    refine ⟨fun hn => ?_, fun hy => ?_⟩
    all_goals
      refine completes_of_onBoard (f := fun b => b.imageComplete d frames) rfl ?_
    · by_cases hc : read.sound = true ∧ h.cyl = cyl ∧ h.head = head ∧ h.format = 0 ∧ h.sector < x.profile.sectors ∧
          h.sector ≠ read.slotNo
      · rw [if_pos hc] at hres
        refine (Board.imageComplete_resync ha hw hl hread hres).trans (Board.takeResync_late ?_)
        rw [Board.setDrv_drv]
        exact fun hp => hn (hcond.1 ⟨hc, hp.trans hslot⟩)
      · rw [if_neg hc] at hres
        exact Board.imageComplete_quiet ha hw hl hread hres
    · obtain ⟨hc, hp⟩ := hcond.2 hy
      rw [if_pos hc] at hres
      refine (Board.imageComplete_resync ha hw hl hread hres).trans ((Board.takeResync_eq ?_).trans ?_)
      · rw [Board.setDrv_drv]
        exact hp.trans hslot.symm
      · rw [Board.setDrv_drv, Board.setDrv_setDrv]
        rfl

end Sys2Proof.Machine
end

section
/-! PROOFS. The ends of an emission, of a wait and of a RELAY sector's writing, and a READ's opening pulse (O24). -/

namespace Sys2Proof.Machine

/-! ### Operations withdrawn (R131, R142) -/

/-- Operations that have written nothing leave the write record as it is. -/
theorem writeRec_unwritten {rec : List Nat} {ops : List StoreOp} {p : StoreOp → Bool}
    (h : ∀ op ∈ ops, p op = true → op.wrote = []) :
    rec.filter (fun s => !(ops.filter p).any (·.writes s)) = rec := by
  refine List.filter_eq_self.2 fun s _ => ?_
  rw [Bool.not_eq_true', List.any_eq_false]
  intro op hop
  obtain ⟨hop, hp⟩ := List.mem_filter.1 hop
  simp [StoreOp.writes, h op hop hp]

/-- With no slot DRAINING a withdrawal frees none. -/
theorem Board.dropOps_undrained {b : Board} (p : StoreOp → Bool) (hd : ∀ x ∈ b.ts.keep, x.2 ≠ .draining) :
    b.dropOps p = { b with ts := { b.ts with
      ops := b.ts.ops.filter fun op => !p op,
      writeRec := b.ts.writeRec.filter fun s => !(b.ts.ops.filter p).any (·.writes s) } } := by
  have hk (held : Nat × KeepState → Bool) :
      b.ts.keep.filter (fun x => !(Decidable.decide (x.2 = .draining) && !held x)) = b.ts.keep :=
    List.filter_eq_self.2 fun x hx => by simp [hd x hx]
  unfold Board.dropOps
  dsimp only
  rw [hk fun x => (b.ts.ops.filter fun op => !p op).any (·.holds x.1)]
  simp

/-- A fill that has written nothing is withdrawn with no other trace (R24). -/
theorem Board.abandonFill_unwritten {b : Board} {d : DriveNo}
    (hops : ∀ op ∈ b.ts.ops, op.kind = .fill d → op.wrote = []) (hd : ∀ x ∈ b.ts.keep, x.2 ≠ .draining) :
    b.abandonFill d = { b with ts := { b.ts with ops := b.ts.ops.filter fun op => op.kind ≠ .fill d } } := by
  unfold Board.abandonFill
  rw [Board.dropOps_undrained _ hd, writeRec_unwritten fun op ho hp => hops op ho (by simpa using hp)]
  simp

theorem Board.modLp_setDrv (b : Board) (d : DriveNo) (y : Drive) (f : LivePath → LivePath) :
    (b.setDrv d y).modLp d f = b.setDrv d { y with lp := f y.lp } := by
  rw [Board.modLp_eq, Board.setDrv_drv, Board.setDrv_setDrv]

theorem Board.voidBuffer_unwritten {b : Board} {d : DriveNo} {y : Drive}
    (hops : ∀ op ∈ b.ts.ops, op.kind = .fill d → op.wrote = []) (hd : ∀ x ∈ b.ts.keep, x.2 ≠ .draining) :
    (b.setDrv d y).voidBuffer d =
      Board.setDrv { b with ts := { b.ts with ops := b.ts.ops.filter fun op => op.kind ≠ .fill d } } d
        { y with lp := { y.lp with buf := .empty } } := by
  unfold Board.voidBuffer
  rw [Board.abandonFill_unwritten (b := b.setDrv d y) hops hd]
  exact Board.modLp_setDrv { b with ts := { b.ts with ops := b.ts.ops.filter fun op => op.kind ≠ .fill d } } _ _ _

/-! ### Ends from inside (R2, R4, R19, R28, R71) -/

section
variable {b : Board} {d : DriveNo}

theorem Board.emissionOver_kept (he : (b.drv d).lp.emission ≠ none) (hc : (b.drv d).lp.bufChanged = false) :
    b.emissionOver d = b.setDrv d { b.drv d with lp := { (b.drv d).lp with emission := none } } := by
  unfold Board.emissionOver
  dsimp only
  rw [if_pos (Option.isSome_iff_ne_none.2 he), if_neg (by rw [hc]; decide), Board.modLp_eq, ← hc]

theorem Board.applyPending_none (h : (b.drv d).da.share.pending = none) : b.applyPending d = b := by
  unfold Board.applyPending
  rw [Board.modDa_eq]
  simp only [h]
  exact b.setDrv_self d

theorem Board.liveEnded_busy (ho : (b.drv d).da.owner = .liveBusy) (hp : (b.drv d).da.share.pending = none)
    (hh : (b.drv d).lp.cmd.phase ≠ .held) :
    b.liveEnded d = b.modDa d fun da => { da with owner := .liveIdle, idleStart := some b.now } := by
  unfold Board.liveEnded
  simp only [ho]
  rw [Board.applyPending_none hp, Board.goIdle_free hh]

theorem Board.slotTimeout_unset (hw : (b.drv d).lp.cmd.phase = .awaitingSlot)
    (hl : (b.drv d).lp.cmd.limit ≤ b.since (b.drv d).lp.cmd.started) (hs : (b.drv d).rc.setup = .none) :
    b.slotTimeout d = (b.modLp d fun lp => { lp with cmd := .idle }).liveEnded d := by
  unfold Board.slotTimeout
  dsimp only
  rw [if_pos ⟨hw, hl⟩, hs]

theorem Board.sectorWritten_on (hw : (b.drv d).da.writing ≠ none) (hs : (b.drv d).da.stopAtEnd = false) :
    b.sectorWritten d = b.modDa d fun da => { da with writing := none, writeImage := [] } := by
  unfold Board.sectorWritten
  dsimp only
  rw [if_pos (Option.isSome_iff_ne_none.2 hw), if_neg (by rw [hs]; decide)]

theorem sectorCells_image_length (image : List Word) :
    (image.flatMap fun w => (List.range 16).map fun i => w.getLsbD (15 - i)).length = 16 * image.length := by
  induction image with
  | nil => rfl
  | cons w ws ih =>
    rw [List.flatMap_cons, List.length_append, ih, List.length_map, List.length_range, List.length_cons]
    omega

/-! ### A READ's slot (R13, R26, R28, R29, R58, R61) -/

/-- A channel that begins the hunt of a slot whose image is not captured. -/
def Channel.hunts (rc : Channel) (k : Nat) : Channel :=
  { rc with slotShift := rc.shift, activity := .hunting, slotNo := k, slotFor := none, slotBuf := none,
            notKept := false, run := 0, cells := 0, wordIndex := 0, check := 0, header := none,
            found := false, sound := false }

theorem Board.openLive_checked {ls : LiveSetup} {k : Nat} (hs : (b.drv d).rc.setup = .live ls)
    (hk : ls.sector = k) (hc : ls.capture = none) :
    b.openLive d k = b.setDrv d { b.drv d with rc := (b.drv d).rc.hunts k } := by
  obtain ⟨cyl, head, sector, capture⟩ := ls
  subst hk
  subst hc
  unfold Board.openLive
  rw [hs]
  dsimp only
  rw [if_pos rfl]
  unfold Board.beginHunt
  dsimp only
  rw [Board.modRc_eq, Board.modRc_eq, Board.setDrv_drv, Board.setDrv_setDrv]
  unfold Channel.hunts
  rw [hs]

theorem Board.openRead_emit (hc : (b.drv d).lp.cmd.course = .emit) (hv : (b.drv d).lp.buf.state = .valid)
    (ha : (b.drv d).lp.buf.addr = (b.drv d).lp.cmd.target) :
    b.openRead d =
      (b.transfer d .emit).modLp d fun lp => { lp with emission := some lp.buf.image, bufChanged := false } := by
  unfold Board.openRead
  simp only [hc, hv, ha, and_self, if_true]

theorem Board.openRead_filling (hc : (b.drv d).lp.cmd.course = .emit) (hf : (b.drv d).lp.buf.state = .filling) :
    b.openRead d =
      (((b.voidBuffer d).makeRelay d).transfer d .relay).openLive d (b.drv d).lp.cmd.target.sector.val := by
  unfold Board.openRead
  simp [hc, hf]

theorem Board.openRead_relay (hc : (b.drv d).lp.cmd.course = .relay) :
    b.openRead d = (b.transfer d .relay).openLive d (b.drv d).lp.cmd.target.sector.val := by
  unfold Board.openRead
  simp only [hc]

theorem Board.openRead_plain (hc : (b.drv d).lp.cmd.course = .plain) : b.openRead d = b.transfer d .plain := by
  unfold Board.openRead
  simp only [hc]

/-- A READ relayed with no SALVAGE to capture for (R29, R100). -/
theorem Board.makeRelay_uncaptured (h : b.captureJob (b.drv d).lp.cmd.target = none) :
    let a := (b.drv d).lp.cmd.target
    b.makeRelay d = b.setDrv d { b.drv d with
      lp := { (b.drv d).lp with cmd := { (b.drv d).lp.cmd with course := .relay } },
      rc := { (b.drv d).rc with
        shift := 0,
        setup := .live { cyl := a.cyl.val, head := a.head.val, sector := a.sector.val, capture := none } } } := by
  unfold Board.makeRelay
  simp only [h]
  rw [Board.modLp_eq, Board.modRc_eq, Board.setDrv_drv, Board.setDrv_setDrv]

end

/-- Settles O24. -/
theorem slotWaitEnds : Obligations.SlotWaitEnds := by
  unfold Obligations.SlotWaitEnds
  intro d s x put
  refine ⟨fun he hc => ?_, fun hw hl hs ho hp => ?_, fun hw hs => ?_, fun hw => ?_, fun hw => ?_, fun wp n => ?_⟩
  · exact completes_of_onBoard (f := fun b => b.emissionOver d) rfl (Board.emissionOver_kept he hc)
  · refine completes_of_onBoard (f := fun b => b.slotTimeout d) rfl ?_
    rw [Board.slotTimeout_unset hw hl hs, Board.modLp_eq, Board.liveEnded_busy, Board.modDa_eq, Board.setDrv_drv,
      Board.setDrv_setDrv]
    · rfl
    all_goals rw [Board.setDrv_drv]
    · exact ho
    · exact hp
    · simp [CmdRec.idle]
  · exact completes_of_onBoard (f := fun b => b.sectorWritten d) rfl (Board.sectorWritten_on hw hs)
  · exact if_neg (by rw [hw]; decide)
  · intro image
    refine ⟨?_, fun hl => ?_⟩
    · refine (if_pos (Option.isSome_iff_ne_none.2 hw)).trans ?_
      rw [sectorCells, List.append_assoc]
      rfl
    · rw [sectorCells_image_length, hl]
  · intro a rt opens hunting hi ho hp hc hk
    have hx : (s.board.setDrv d (x.pulsed wp)).drv d = x.pulsed wp := Board.setDrv_drv _ _ _
    have hsector : (x.pulsed wp).lp.cmd.target.sector.val = a.sector.val := rfl
    have hstep : s.board.sectorPulse d wp = (s.board.setDrv d (x.pulsed wp)).openRead d := by
      rw [Board.sectorPulse_awaiting wp hi ho hp]
      exact Board.openSlot_read (by rw [hx]; exact hp) (by rw [hx]; exact hc) (by rw [hx]; exact hk)
    refine ⟨fun hcourse hv ha => ?_, fun hcourse hf hj hops hkeep => ?_, fun ls hcourse hs hsec hcap => ?_,
      fun hcourse => ?_⟩
    all_goals
      refine completes_of_onBoard (f := fun b => b.sectorPulse d wp) rfl (hstep.trans ?_)
    · rw [Board.openRead_emit (by rw [hx]; exact hcourse) (by rw [hx]; exact hv) (by rw [hx]; exact ha),
        Board.transfer_eq, hx, Board.setDrv_setDrv, Board.modLp_eq, Board.setDrv_drv, Board.setDrv_setDrv]
      rfl
    · rw [Board.openRead_filling (by rw [hx]; exact hcourse) (by rw [hx]; exact hf), hx, hsector,
        Board.voidBuffer_unwritten hops hkeep, Board.makeRelay_uncaptured (by rw [Board.setDrv_drv]; exact hj),
        Board.setDrv_drv, Board.setDrv_setDrv, Board.transfer_eq, Board.setDrv_drv, Board.setDrv_setDrv,
        Board.openLive_checked (k := a.sector.val) (by rw [Board.setDrv_drv]) rfl rfl, Board.setDrv_drv,
        Board.setDrv_setDrv]
      rfl
    · rw [Board.openRead_relay (by rw [hx]; exact hcourse), Board.transfer_eq, hx, Board.setDrv_setDrv, hsector,
        Board.openLive_checked (by rw [Board.setDrv_drv]; exact hs) hsec hcap, Board.setDrv_drv, Board.setDrv_setDrv]
      exact congrArg (fun st => opens .relay x.lp (hunting x.rc.shift st)) hs
    · rw [Board.openRead_plain (by rw [hx]; exact hcourse), Board.transfer_eq, hx, Board.setDrv_setDrv]
      rfl

end Sys2Proof.Machine
end

section
/-! PROOFS. The ends of a fill and of a RELAY's store work, and how a RELAY's pass begins (O43). -/

namespace Sys2Proof.Machine

/-! ### Ends of the store's operations (R24, R106, R141) -/

section
variable {b : Board} {op : StoreOp} (hops : b.ts.ops = [op]) (hd : ∀ x ∈ b.ts.keep, x.2 ≠ .draining)

/-- The board with no operation left in the store, what op wrote struck from the write record (R142). -/
def Board.opDone (b : Board) (op : StoreOp) : Board :=
  { b with ts := { b.ts with ops := [], writeRec := b.ts.writeRec.filter (!op.writes ·) } }

include hops hd

theorem Board.dropOps_only {p : StoreOp → Bool} (hp : p op = true) : b.dropOps p = b.opDone op := by
  rw [Board.dropOps_undrained p hd, hops]
  simp [hp, Board.opDone]

variable (ht : op.todo = [])
include ht

theorem Board.fillDone_checked {d : DriveNo} (hk : op.kind = .fill d)
    (hc : emitCheck (b.drv d).lp.buf.addr (unpackWords op.got) = true) :
    b.fillDone d = (b.opDone op).modLp d fun lp =>
      { lp with buf := { state := .valid, addr := (b.drv d).lp.buf.addr, image := unpackWords op.got } } := by
  have hdone : b.ts.doneOp (.fill d) = some op := by
    unfold Store.doneOp
    rw [hops]
    simp [hk, ht]
  unfold Board.fillDone Board.abandonFill
  simp only [hdone, hc, if_true]
  rw [Board.dropOps_only hops hd (by simp [hk])]

theorem Board.writeFillDone_built {d : DriveNo} {k : Nat} {fromImage : Bool} {j : Job}
    (hk : op.kind = .writeFill d k fromImage) (hj : b.servedJob d = some j) :
    b.writeFillDone d = (b.opDone op).modDa d fun da =>
      { da with wbuf := .ready k fromImage (buildImage (j.track.addr k) (buildVolume (b.drv d).profile)
          (dataWords (unpackWords op.got))) } := by
  unfold Board.writeFillDone
  simp only [hops, List.find?_cons, ht, hk, hj, List.isEmpty_nil, decide_true, Bool.and_self]
  rw [Board.dropOps_only hops hd (by simp [hk])]

theorem Board.copyDone_freed {a : Addr} {source : Nat} (hk : op.kind = .copy a source) (hs : op.spoiled = false) :
    b.copyDone op.slot = (b.opDone op).freePool source := by
  unfold Board.copyDone
  simp only [hops, List.find?_cons, ht, hk, List.isEmpty_nil, decide_true, Bool.and_self]
  rw [Board.dropOps_only hops hd (by simp [hk])]
  unfold Board.treatSpoiled
  rw [if_neg (by rw [hs]; decide)]

end

/-! ### The least free capture slots (R98) -/

theorem firstGap_le (n : Nat) (l : List Nat) : n ≤ firstGap n l := by
  induction l generalizing n with
  | nil => exact le_rfl
  | cons u us ih =>
    unfold firstGap
    split_ifs
    · exact ih n
    · exact (Nat.le_succ n).trans (ih (n + 1))
    · exact le_rfl

theorem firstGap_notMem {n : Nat} {l : List Nat} (h : l.Pairwise (· < ·)) : firstGap n l ∉ l := by
  induction l generalizing n with
  | nil => exact List.not_mem_nil
  | cons u us ih =>
    obtain ⟨hu, hus⟩ := List.pairwise_cons.1 h
    unfold firstGap
    split_ifs with h1 h2
    · have := firstGap_le n us
      exact fun hm => (List.mem_cons.1 hm).elim (by omega) (ih hus)
    · have := firstGap_le (n + 1) us
      exact fun hm => (List.mem_cons.1 hm).elim (by omega) (ih hus)
    · exact fun hm => (List.mem_cons.1 hm).elim (by omega) fun hm => by have := hu n hm; omega

theorem mem_of_lt_firstGap {n m : Nat} {l : List Nat} (hn : n ≤ m) (hm : m < firstGap n l) : m ∈ l := by
  induction l generalizing n with
  | nil => exact absurd hm (by unfold firstGap; omega)
  | cons u us ih =>
    unfold firstGap at hm
    split_ifs at hm with h1 h2
    · exact List.mem_cons_of_mem u (ih hn hm)
    · obtain rfl | hlt := Nat.eq_or_lt_of_le hn
      · exact h2 ▸ List.mem_cons_self
      · exact List.mem_cons_of_mem u (ih hlt hm)
    · omega

/-- Where fewer numbers than a range holds are taken, the first free one lies in the range. -/
theorem firstGap_lt {low n : Nat} {l : List Nat} (h : l.length < n) : firstGap low l < low + n := by
  by_contra hge
  have hsub : (List.range n).map (low + ·) ⊆ l := fun m hm => by
    obtain ⟨i, hi, rfl⟩ := List.mem_map.1 hm
    exact mem_of_lt_firstGap (Nat.le_add_right low i) (by have := List.mem_range.1 hi; omega)
  have hnodup : ((List.range n).map (low + ·)).Nodup := List.nodup_range.map fun _ _ => Nat.add_left_cancel
  have := (List.subperm_of_subset hnodup hsub).length_le
  rw [List.length_map, List.length_range] at this
  omega

theorem insertNat_length {n : Nat} {l : List Nat} (h : n ∉ l) : (insertNat n l).length = l.length + 1 := by
  induction l with
  | nil => rfl
  | cons u us ih =>
    obtain ⟨hu, hus⟩ := List.ne_and_not_mem_of_not_mem_cons h
    unfold insertNat
    rw [if_neg hu]
    split_ifs
    · rfl
    · rw [List.length_cons, ih hus, List.length_cons]

/-- The lowest free capture slots, a number of them, with the given ones in use. -/
def gaps : Nat → List Nat → List Nat
  | 0, _ => []
  | n + 1, pool => firstGap Config.keepSlots pool :: gaps n (insertNat (firstGap Config.keepSlots pool) pool)

theorem gaps_length (n : Nat) (pool : List Nat) : (gaps n pool).length = n := by
  induction n generalizing pool with
  | zero => rfl
  | succ n ih => exact congrArg (· + 1) (ih _)

theorem mem_gaps {n m : Nat} {pool : List Nat} (h : pool.Pairwise (· < ·))
    (hroom : pool.length + n ≤ Config.allSlots - Config.keepSlots) (hm : m ∈ gaps n pool) :
    (Config.keepSlots ≤ m ∧ m < Config.allSlots ∧ m ∉ pool) ∧
      ∀ i, i < m → Config.keepSlots ≤ i → i ∉ pool → i ∈ gaps n pool := by
  induction n generalizing pool with
  | zero => cases hm
  | succ n ih =>
    have hnot := firstGap_notMem (n := Config.keepSlots) h
    have hlt : firstGap Config.keepSlots pool < Config.allSlots :=
      (firstGap_lt (n := Config.allSlots - Config.keepSlots) (by omega)).trans_eq (by decide)
    unfold gaps at hm ⊢
    obtain rfl | hm := List.mem_cons.1 hm
    · exact ⟨⟨firstGap_le _ _, hlt, hnot⟩, fun i hi hk hp => absurd (mem_of_lt_firstGap hk hi) hp⟩
    · obtain ⟨⟨hk, ha, hp⟩, hleast⟩ := ih (insertNat_ordered h) (by rw [insertNat_length hnot]; omega) hm
      rw [mem_insertNat, not_or] at hp
      refine ⟨⟨hk, ha, hp.2⟩, fun i hi hki hpi => ?_⟩
      by_cases he : i = firstGap Config.keepSlots pool
      · exact he ▸ List.mem_cons_self
      · exact List.mem_cons_of_mem _ (hleast i hi hki fun hmem => (mem_insertNat.1 hmem).elim he hpi)

theorem gaps_ordered {n : Nat} {pool : List Nat} (h : pool.Pairwise (· < ·))
    (hroom : pool.length + n ≤ Config.allSlots - Config.keepSlots) : (gaps n pool).Pairwise (· < ·) := by
  induction n generalizing pool with
  | zero => exact List.Pairwise.nil
  | succ n ih =>
    have hnot := firstGap_notMem (n := Config.keepSlots) h
    have hroom' : (insertNat (firstGap Config.keepSlots pool) pool).length + n ≤
        Config.allSlots - Config.keepSlots := by rw [insertNat_length hnot]; omega
    refine List.pairwise_cons.2 ⟨fun m hm => ?_, ih (insertNat_ordered h) hroom'⟩
    obtain ⟨⟨hk, -, hp⟩, -⟩ := mem_gaps (insertNat_ordered h) hroom' hm
    rw [mem_insertNat, not_or] at hp
    by_contra hge
    exact hp.2 (mem_of_lt_firstGap hk (by omega))

end Sys2Proof.Machine
end

section
/-! PROOFS. How a RELAY's pass begins as its positioning ends (O43). -/

namespace Sys2Proof.Machine

/-! ### A drive's records replaced twice -/

section
variable (b : Board) (d : DriveNo) (y : Drive)

theorem Board.modDa_setDrv (f : Arbiter → Arbiter) :
    (b.setDrv d y).modDa d f = b.setDrv d { y with da := f y.da } := by
  rw [Board.modDa_eq, Board.setDrv_drv, Board.setDrv_setDrv]

theorem Board.modRc_setDrv (f : Channel → Channel) :
    (b.setDrv d y).modRc d f = b.setDrv d { y with rc := f y.rc } := by
  rw [Board.modRc_eq, Board.setDrv_drv, Board.setDrv_setDrv]

theorem Board.setDrv_servedJob : (b.setDrv d y).servedJob d = y.da.served.bind fun r => b.job r.serial := by
  unfold Board.servedJob
  rw [Board.setDrv_drv]
  rfl

theorem Board.modPins_setDrv (f : Pins → Pins) :
    (b.setDrv d y).modPins d f = b.setDrv d { y with pins := f y.pins } := by
  rw [Board.modPins_eq, Board.setDrv_drv, Board.setDrv_setDrv]

end

/-! ### Positioning complete (R77, R79) -/

/-- A drive whose heads have reached the planned track. -/
def Drive.positioned (x : Drive) : Drive :=
  { x with
    pins := { x.pins with onCylinder := true, head := Fin.ofNat 4 x.da.plan.head },
    da := { x.da with
      headCyl := some (Fin.ofNat 512 x.da.plan.cyl), seekFault := false, work := .idle,
      enginePos := some { cyl := x.da.plan.cyl, head := x.da.plan.head, offset := x.da.plan.offset } } }

/-- Such a drive in its pass, no slot of it open yet. -/
def Drive.inPass (x : Drive) (kind : PassKind) : Drive :=
  { x.positioned with da := { x.positioned.da with
      owner := .enginePass, passKind := some kind, slots := 0, atBoundary := false, stopAtEnd := false,
      missed := false, surveyMask := 0, work := .idle, wbuf := .empty, writing := none, writeImage := [] } }

section
variable {b : Board} {d : DriveNo}

theorem Board.onCylinder_starts {j : Job} (hl : (b.drv d).lp.seeking = false) (hw : (b.drv d).da.work = .seek)
    (ha : (b.drv d).da.abandon = false) (hp : (b.drv d).da.preempted = false)
    (ho : (b.drv d).rc.offset = (b.drv d).da.plan.offset) (hdoubt : (b.drv d).rt.doubt = false)
    (hj : b.servedJob d = some j) :
    b.onCylinder d = (b.setDrv d (b.drv d).positioned).passStart d j := by
  have hjob : ((b.drv d).da.served.bind fun r => b.job r.serial) = some j := hj
  unfold Board.onCylinder
  simp only [hl, hw, Bool.false_eq_true, if_false]
  rw [Board.modPins_eq]
  unfold Board.headsAt
  rw [Board.modDa_setDrv]
  unfold Board.thenStep
  rw [if_neg (by rw [Board.setDrv_drv]; simp [Arbiter.stopping, ha, hp])]
  unfold Board.posHead
  dsimp only
  rw [Board.modPins_setDrv, Board.setDrv_drv]
  unfold Board.posOffsetOn
  dsimp only
  rw [Board.setDrv_drv, if_pos ho]
  unfold Board.posComplete
  rw [Board.setDrv_servedJob]
  dsimp only
  rw [hjob, Board.modDa_setDrv, Board.setDrv_drv]
  exact if_neg (by rw [hdoubt]; decide)

/-- A pass that reads is given its set-up (R79). -/
theorem Board.passStart_read {j : Job} (h : ¬ (j.kind = .relay ∧ j.relayStep = .write)) :
    (b.setDrv d (b.drv d).positioned).passStart d j = (b.setDrv d ((b.drv d).inPass .read)).givePass d j := by
  unfold Board.passStart
  simp only [h, if_false]
  rw [Board.modDa_setDrv]
  rfl

/-- A WRITE pass requests the image of the sector after the position (R106). -/
theorem Board.passStart_write {j : Job} (h : j.kind = .relay ∧ j.relayStep = .write) :
    (b.setDrv d (b.drv d).positioned).passStart d j =
      (b.setDrv d ((b.drv d).inPass .write)).startWriteFill d j.serial
        (((b.drv d).rt.position + 1) % (b.drv d).profile.sectors) := by
  unfold Board.passStart
  simp only [h, and_self, if_true]
  rw [Board.modDa_setDrv, Board.setDrv_drv]
  rfl

/-! ### The source of a WRITE pass's slot (R106, R141) -/

section
variable {serial k : Nat} {j : Job} (hj : b.job serial = some j)
include hj

theorem Board.startWriteFill_entry {e : KeepEntry} (he : b.ts.entry (j.track.addr k) = some e)
    (hg : e.damaged = false) :
    b.startWriteFill d serial k = (b.modDa d fun da => { da with wbuf := .filling k false }).request
      (.writeFill d k false) e.slot (slotReads e.slot Config.imageCells) := by
  unfold Board.startWriteFill
  simp [hj, he, KeepEntry.usable, hg, Option.filter]

variable (hn : (b.ts.entry (j.track.addr k)).all (·.damaged) = true)
include hn

omit hj in
theorem Store.no_usable : (b.ts.entry (j.track.addr k)).filter (·.usable) = none := by
  cases he : b.ts.entry (j.track.addr k) with
  | none => rfl
  | some e =>
    rw [he] at hn
    simp [Option.filter, KeepEntry.usable, show e.damaged = true from hn]

theorem Board.startWriteFill_image {c : Capture} (hc : (j.relayRec k).bind (·.image) = some c) :
    b.startWriteFill d serial k =
      if c.held then
        (b.modDa d fun da => { da with wbuf := .filling k true }).request (.writeFill d k true) c.slot
          (slotReads c.slot Config.imageCells)
      else b.modDa d fun da => { da with wbuf := .waiting k } := by
  unfold Board.startWriteFill
  simp only [hj, Store.no_usable hn, hc]

theorem Board.startWriteFill_sourceless (hc : (j.relayRec k).bind (·.image) = none) :
    b.startWriteFill d serial k = b.fatalWrite d serial := by
  unfold Board.startWriteFill
  simp only [hj, Store.no_usable hn, hc]

end

/-! ### The slots of a PREPARE pass (R105) -/

/-- A RELAY with a slot set aside for each of some sectors. -/
def Job.asides (j : Job) (l : List (Nat × Nat)) : Job :=
  l.foldl (fun j p => j.modRelay p.1 fun q => { q with aside := some p.2 }) j

theorem Job.asides_serial (j : Job) (l : List (Nat × Nat)) : (j.asides l).serial = j.serial := by
  induction l generalizing j with
  | nil => rfl
  | cons p ps ih => exact ih _

/-- The sectors of a RELAY that have no source (R105). -/
def Board.sourceless (b : Board) (t : Track) (rs : List RelaySector) : List Nat :=
  (rs.filter fun q => !((b.ts.entry (t.addr q.sector)).any (!·.damaged) || q.image.isSome)).map (·.sector)

theorem Board.sourceOf_none (b : Board) (t : Track) (r : RelaySector) :
    b.sourceOf t r = .none ↔ ((b.ts.entry (t.addr r.sector)).any (!·.damaged) || r.image.isSome) = false := by
  unfold Board.sourceOf KeepEntry.usable
  split_ifs with h1 h2
  · simp [h1]
  · simp [h1, h2]
  · simp [h1, h2]

/-- The board with slots set aside for sectors of a RELAY. -/
def Board.withAsides (b : Board) (serial : Nat) (sectors slots : List Nat) : Board :=
  { b with
    ts := { b.ts with pool := slots.foldl (fun ps n => insertNat n ps) b.ts.pool },
    re := { b.re with jobs := b.re.jobs.map fun i =>
      if i.serial = serial then i.asides (sectors.zip slots) else i } }

/-- A slot of a PREPARE pass that is captured into a slot set aside. -/
def captureInto (serial k n : Nat) : SlotPlan :=
  { sector := k, capture := some { job := serial, sector := k, slot := some n }, acted := false }

theorem Board.withAsides_nil (b : Board) (serial : Nat) : b.withAsides serial [] [] = b := by
  have hmap : b.re.jobs.map (fun i => if i.serial = serial then i.asides [] else i) = b.re.jobs :=
    List.map_congr_left (fun i _ => ite_self i) |>.trans (List.map_id _)
  unfold Board.withAsides
  rw [List.zip_nil_left, hmap]
  rfl

theorem Board.withAsides_cons (b : Board) (serial k n : Nat) (ks ns : List Nat) :
    ((b.usePool n).modJob serial fun j => j.modRelay k fun r => { r with aside := some n }).withAsides serial ks ns =
      b.withAsides serial (k :: ks) (n :: ns) := by
  unfold Board.withAsides Board.modJob Board.usePool
  simp only [List.map_map, List.zip_cons_cons, List.foldl_cons]
  congr 3
  funext i
  by_cases hi : i.serial = serial
  · have hs : (i.modRelay k fun r => { r with aside := some n }).serial = serial := hi
    simp only [Function.comp, hi, hs, if_true]
    rfl
  · simp [hi]

theorem Board.setAsideRelay_free {serial k : Nat} (h : b.ts.pool.length < Config.allSlots - Config.keepSlots) :
    b.setAsideRelay serial k =
      ((b.usePool (firstGap Config.keepSlots b.ts.pool)).modJob serial fun j => j.modRelay k fun r =>
        { r with aside := some (firstGap Config.keepSlots b.ts.pool) },
      some (firstGap Config.keepSlots b.ts.pool)) := by
  have hlt : firstGap Config.keepSlots b.ts.pool < Config.allSlots := (firstGap_lt h).trans_eq (by decide)
  unfold Board.setAsideRelay Store.freePoolSlot
  simp only [hlt, if_true]

/-- While the pool has room, the sectors without a source take its lowest free slots in turn. -/
theorem Board.preparePlans_eq {serial : Nat} {t : Track} {rs : List RelaySector} (h : b.ts.pool.Pairwise (· < ·))
    (hroom : b.ts.pool.length + (b.sourceless t rs).length ≤ Config.allSlots - Config.keepSlots) :
    b.preparePlans serial t rs =
      (b.withAsides serial (b.sourceless t rs) (gaps (b.sourceless t rs).length b.ts.pool),
        List.zipWith (captureInto serial) (b.sourceless t rs) (gaps (b.sourceless t rs).length b.ts.pool)) := by
  induction rs generalizing b with
  | nil => exact congrArg (·, []) (b.withAsides_nil serial).symm
  | cons r rs ih =>
    unfold Board.preparePlans
    by_cases hs : b.sourceOf t r = .none
    · have hcons : b.sourceless t (r :: rs) = r.sector :: b.sourceless t rs := by
        unfold Board.sourceless
        rw [List.filter_cons_of_pos (by rw [(Board.sourceOf_none b t r).1 hs]; rfl), List.map_cons]
      rw [hcons, List.length_cons] at hroom ⊢
      have hnot := firstGap_notMem (n := Config.keepSlots) h
      rw [if_pos hs, Board.setAsideRelay_free (by omega)]
      dsimp only
      rw [ih (insertNat_ordered h)
        (by change (insertNat _ b.ts.pool).length + (b.sourceless t rs).length ≤ _; rw [insertNat_length hnot]; omega)]
      exact Prod.ext (Board.withAsides_cons b serial r.sector _ _ _) rfl
    · have hskip : b.sourceless t (r :: rs) = b.sourceless t rs := by
        unfold Board.sourceless
        rw [List.filter_cons_of_neg (by
          rw [Board.sourceOf_none, Bool.not_eq_false] at hs
          rw [hs]; decide)]
      rw [if_neg hs, hskip]
      exact ih h (by rw [← hskip]; exact hroom)

end

end Sys2Proof.Machine
end

section
/-! PROOFS. A slot of a RELAY's WRITE pass (O43). -/

namespace Sys2Proof.Machine

/-! ### Jobs changed by their serial (R90) -/

theorem Board.job_modJob (b : Board) (n : Nat) {f : Job → Job} (hf : ∀ j, (f j).serial = j.serial) :
    (b.modJob n f).job n = (b.job n).map f := by
  unfold Board.job Board.modJob
  dsimp only
  induction b.re.jobs with
  | nil => rfl
  | cons j js ih =>
    by_cases hj : j.serial = n
    · have hn : (f j).serial = n := (hf j).trans hj
      rw [List.map_cons, if_pos hj, List.find?_cons_of_pos (by simpa using hn),
        List.find?_cons_of_pos (by simpa using hj), Option.map_some]
    · rw [List.map_cons, if_neg hj, List.find?_cons_of_neg (by simpa using hj),
        List.find?_cons_of_neg (by simpa using hj), ih]

theorem Board.modJob_modJob (b : Board) (n : Nat) {f : Job → Job} (g : Job → Job)
    (hf : ∀ j, j.serial = n → (f j).serial = n) : (b.modJob n f).modJob n g = b.modJob n fun j => g (f j) := by
  unfold Board.modJob
  simp only [List.map_map]
  congr 3
  funext j
  by_cases hj : j.serial = n
  · simp [hj, hf j hj]
  · simp [hj]

theorem Job.relayImage_modRelay (j : Job) (k n : Nat) {f : RelaySector → RelaySector}
    (hs : ∀ q, (f q).sector = q.sector) (hi : ∀ q, (f q).image = q.image) :
    ((j.modRelay k f).relayRec n).bind (·.image) = (j.relayRec n).bind (·.image) := by
  unfold Job.relayRec Job.modRelay
  dsimp only
  induction j.relay with
  | nil => rfl
  | cons q qs ih =>
    have hsector : (if q.sector = k then f q else q).sector = q.sector := by split_ifs <;> [exact hs q; rfl]
    have himage : (if q.sector = k then f q else q).image = q.image := by split_ifs <;> [exact hi q; rfl]
    by_cases hq : q.sector = n
    · rw [List.map_cons, List.find?_cons_of_pos (by simpa using hsector.trans hq),
        List.find?_cons_of_pos (by simpa using hq)]
      exact himage
    · rw [List.map_cons, List.find?_cons_of_neg (by simpa [hsector] using hq),
        List.find?_cons_of_neg (by simpa using hq), ih]

/-! ### What a slot of a WRITE pass leaves alone -/

section
variable {b : Board} {d : DriveNo}

theorem Board.openSlot_none {k : Nat} (h : (b.drv d).lp.cmd.phase ≠ .awaitingSlot) : b.openSlot d k = b :=
  if_neg fun hp => h hp.1

theorem Board.startWriteFill_lp (n k : Nat) : ((b.startWriteFill d n k).drv d).lp = (b.drv d).lp := by
  unfold Board.startWriteFill Board.fatalWrite
  repeat' split
  all_goals simp

theorem Board.missSlot_lp : ((b.missSlot d).drv d).lp = (b.drv d).lp := by
  simp [Board.missSlot, Board.dropWriteFill]

theorem Board.openWriteSlot_lp (k : Nat) : ((b.openWriteSlot d k).drv d).lp = (b.drv d).lp := by
  unfold Board.openWriteSlot
  dsimp only
  repeat' split
  all_goals simp [Board.startWriteFill_lp, Board.missSlot_lp]

/-! ### The slot opens (R4, R79, R106, R141) -/

/-- A drive whose pass has one slot more behind it. -/
def Drive.slotOn (x : Drive) : Drive := { x with da := { x.da with slots := x.da.slots + 1 } }

theorem Board.openPassSlot_write {y : Drive} {k : Nat} (hk : y.da.passKind = some .write) :
    (b.setDrv d y).openPassSlot d k = (b.setDrv d y.slotOn).openWriteSlot d k := by
  unfold Board.openPassSlot
  rw [Board.modDa_setDrv]
  dsimp only
  rw [Board.setDrv_drv]
  dsimp only
  split
  · rfl
  · next h => rw [hk] at h; cases h
  · next h => rw [hk] at h; cases h

theorem Board.sectorPulse_writing (wp : Bool) (hi : (b.drv d).rc.activity = .idle)
    (hp : (b.drv d).lp.cmd.phase ≠ .transfer) (hp' : (b.drv d).lp.cmd.phase ≠ .awaitingSlot)
    (ho : (b.drv d).da.owner = .enginePass) (hs : (b.drv d).da.stopAtEnd = false)
    (hk : (b.drv d).da.passKind = some .write) (ha : (b.drv d).da.atBoundary = false)
    (hn : (b.drv d).da.slots < (b.drv d).profile.sectors) :
    b.sectorPulse d wp =
      (b.setDrv d ((b.drv d).pulsed wp).slotOn).openWriteSlot d (b.drv d).opening := by
  have hends : (b.drv d).passEnds = false := by simp [Drive.passEnds, hs, ha, hn]
  rw [Board.sectorPulse_closed wp hi hp]
  simp only [ho, hends, decide_true, Bool.not_false, Bool.and_self, if_true, Bool.false_eq_true, if_false]
  rw [Board.openPassSlot_write (show ((b.drv d).pulsed wp).da.passKind = some .write from hk)]
  refine Board.openSlot_none ?_
  rw [Board.openWriteSlot_lp, Board.setDrv_drv]
  exact hp'

/-- A RELAY whose sector k is being written, from its PREPARE image or not (R106). -/
def Job.writes (j : Job) (k : Nat) (fromImage : Bool) : Job :=
  { j.modRelay k fun q => { q with written := fromImage } with written := true }

/-- A slot whose image is ready is written, and the next slot's is requested unless this is the last (R106). -/
theorem Board.openWriteSlot_ready {y : Drive} {k : Nat} {fromImage : Bool} {img : List Word} {r : JobRef}
    (hw : y.da.wbuf = .ready k fromImage img) (hr : y.da.served = some r) :
    (b.setDrv d y).openWriteSlot d k =
      let b1 := (b.modJob r.serial (Job.writes · k fromImage)).setDrv d
        { y with da := { y.da with writing := some k, writeImage := img, wbuf := .empty } }
      if y.da.slots < y.profile.sectors then b1.startWriteFill d r.serial ((k + 1) % y.profile.sectors) else b1 := by
  unfold Board.openWriteSlot
  rw [Board.setDrv_drv]
  simp only [hw, hr, if_true]
  rw [Board.modDa_setDrv, ← hr]
  rfl

theorem Board.openWriteSlot_unready {k : Nat}
    (hw : ∀ fromImage img, (b.drv d).da.wbuf ≠ .ready k fromImage img) : b.openWriteSlot d k = b.missSlot d := by
  unfold Board.openWriteSlot
  dsimp only
  split
  · next n fromImage img r hready _ =>
    exact if_neg fun hn => hw fromImage img (by rw [← hn]; exact hready)
  · rfl

/-! ### Operations withdrawn before they write (R131, R142) -/

/-- Whether a keep slot that drains is free once only some operations are left. -/
abbrev freedBy (ops : List StoreOp) (p : Nat × KeepState) : Prop :=
  p.2 = .draining ∧ ∀ op ∈ ops, op.holds p.1 = false

theorem filter_length_ne {α : Type} (l : List α) (p : α → Bool) :
    (l.filter p).length ≠ l.length ↔ ∃ x ∈ l, p x = false := by
  rw [Ne, List.length_filter_eq_length_iff]
  simp

/-- Operations that have written nothing are withdrawn; the slots that drained for them alone are free, and an
examination follows (R103, R131). -/
theorem Board.dropOps_unwritten {p : StoreOp → Bool} (h : ∀ op ∈ b.ts.ops, p op = true → op.wrote = []) :
    b.dropOps p = { b with
      exam := b.exam || Decidable.decide (∃ q ∈ b.ts.keep, freedBy (b.ts.ops.filter (!p ·)) q),
      ts := { b.ts with
        ops := b.ts.ops.filter (!p ·),
        keep := b.ts.keep.filter fun q => ¬ freedBy (b.ts.ops.filter (!p ·)) q } } := by
  have hfreed (q : Nat × KeepState) :
      (!(Decidable.decide (q.2 = .draining) && !(b.ts.ops.filter (!p ·)).any (·.holds q.1))) =
        Decidable.decide (¬ freedBy (b.ts.ops.filter (!p ·)) q) := by
    rw [Bool.eq_iff_iff]
    simp [freedBy]
  unfold Board.dropOps
  dsimp only
  rw [writeRec_unwritten h, List.filter_congr fun q _ => hfreed q]
  congr 2
  rw [decide_eq_decide, filter_length_ne]
  simp [freedBy]

end

end Sys2Proof.Machine
end

section
/-! PROOFS. The end of a pass, the hand-back that follows it, and a RELAY that has verified every sector (O43). -/

namespace Sys2Proof.Machine

section
variable {b : Board} {d : DriveNo} {y : Drive}

/-! ### The hand-back (R72, R80, R84) -/

theorem Board.applyPending_setDrv :
    (b.setDrv d y).applyPending d = b.setDrv d { y with da := { y.da with share := y.da.share.settled } } := by
  unfold Board.applyPending Share.settled
  rw [Board.modDa_setDrv]
  cases y.da.share.pending <;> rfl

theorem Board.bestJob_none {l : List Job} (h : ∀ j, b.eligible d j = false) : b.bestJob d l = none := by
  induction l with
  | nil => rfl
  | cons j js ih =>
    unfold Board.bestJob
    rw [ih, h j]
    rfl

/-- A restore with no offset on and the heads at the live cylinder hands the drive back at once (R84). -/
theorem Board.restore_handsBack (hp : y.lp.cmd.phase ≠ .held) (ho : y.rc.offset = .zero)
    (hc : y.da.headCyl = some y.lp.pos.cyl) :
    (b.setDrv d y).restore d = b.setDrv d { y with
      pins := { y.pins with head := y.lp.pos.head },
      da := { y.da with
        owner := .liveIdle, idleStart := some b.now, served := none, passKind := none, slots := 0,
        atBoundary := false, abandon := false, preempted := false, stopAtEnd := false, missed := false,
        second := false, enginePos := none, work := .idle } } := by
  unfold Board.restore
  rw [Board.modDa_setDrv]
  unfold Board.restoreSteps
  rw [if_neg (by rw [Board.setDrv_drv]; exact not_not_intro ho)]
  unfold Board.restoreSeek
  dsimp only
  rw [if_pos (by rw [Board.setDrv_drv]; exact hc)]
  unfold Board.restoreHead
  rw [Board.modPins_setDrv, Board.setDrv_drv]
  unfold Board.handBack
  rw [Board.modDa_setDrv, Board.goIdle_free (by rw [Board.setDrv_drv]; exact hp), Board.modDa_setDrv]
  rfl

/-- The decision between passes where LIVE_ONLY is pending or the drive is under speed doubt (R72, R75, R80). -/
theorem Board.decide_handsBack (hp : y.lp.cmd.phase ≠ .held) (hh : y.da.held = false)
    (hl : y.da.share.pending = some .liveOnly ∨ (y.da.share.pending = none ∧ y.rt.doubt = true))
    (ho : y.rc.offset = .zero) (hc : y.da.headCyl = some y.lp.pos.cyl) (hm : y.da.surveyMask = 0) :
    (b.setDrv d y).decide d = b.setDrv d (y.handedBack b.now) := by
  let z : Drive := { y with da := { y.da with share := y.da.share.settled, served := none, work := .idle } }
  have hrestore : (b.setDrv d z).restore d = b.setDrv d (y.handedBack b.now) := by
    rw [Board.restore_handsBack (y := z) hp ho hc]
    unfold Drive.handedBack
    rw [← hm]
  unfold Board.decide Board.decideFor
  rw [Board.applyPending_setDrv, Board.modDa_setDrv]
  dsimp only
  split_ifs with h
  · exact hrestore
  · have hmode : y.da.share.settled.mode ≠ .liveOnly := by
      rw [Board.setDrv_drv] at h
      simp only [hh, Bool.false_or, decide_eq_true_eq] at h
      exact h
    have hnone : (b.setDrv d z).choose d = none := by
      refine Board.bestJob_none fun j => ?_
      obtain hpend | ⟨-, hdoubt⟩ := hl
      · exact absurd (by unfold Share.settled; rw [hpend]) hmode
      · unfold Board.eligible
        rw [Board.setDrv_drv, show z.rt.doubt = true from hdoubt]
        simp
    change (match (b.setDrv d z).choose d with
      | none => _
      | some j => _) = _
    rw [hnone]
    exact hrestore

/-! ### The end of a pass (R79) -/

theorem Board.withdraw_acted (hs : ∀ ps, y.rc.setup = .pass ps → ∀ q ∈ ps.plans, q.acted = true ∨ q.capture = none)
    (hl : ∀ ls, y.rc.setup ≠ .live ls) :
    (b.setDrv d y).withdraw d = b.setDrv d { y with rc := { y.rc with setup := .none, shift := 0 } } := by
  unfold Board.withdraw
  rw [Board.setDrv_drv]
  dsimp only
  cases hset : y.rc.setup with
  | none => exact Board.modRc_setDrv _ _ _ _
  | live ls => exact absurd hset (hl ls)
  | pass ps =>
    have hgone : ((ps.plans.filter fun p => !p.acted).flatMap fun p => p.capture.toList) = [] := by
      refine List.flatMap_eq_nil_iff.2 fun q hq => ?_
      obtain ⟨hq, hact⟩ := List.mem_filter.1 hq
      obtain h | h := hs ps hset q hq
      · rw [h] at hact; cases hact
      · rw [h]; rfl
    dsimp only
    rw [hgone]
    exact Board.modRc_setDrv _ _ _ _

/-- A drive whose pass has ended, before the engine is told. -/
def Drive.passLeft (x : Drive) : Drive :=
  { x with da := { x.da with
      passKind := none, slots := 0, atBoundary := false, stopAtEnd := false, missed := false, surveyMask := 0,
      writing := none, writeImage := [] } }

theorem Board.dropWriteFill_none (h : b.noWriteFill d) :
    (b.setDrv d y).dropWriteFill d = b.setDrv d { y with da := { y.da with wbuf := .empty } } := by
  obtain ⟨hops, hkeep⟩ := h
  unfold Board.dropWriteFill
  rw [Board.dropOps_none (b := b.setDrv d y) (fun op hop => ?_) hkeep]
  · exact Board.modDa_setDrv _ _ _ _
  · split
    · next e k f hk => exact decide_eq_false fun he => hops op hop k f (he ▸ hk)
    · rfl

theorem Board.reportSurvey_none (h : (b.drv d).da.surveyMask = 0) : b.reportSurvey d = b := if_pos h

theorem Board.endPass_closed {r : JobRef} (full : Bool) (he : b.exam = false) (hw : b.noWriteFill d)
    (hs : ∀ ps, y.rc.setup = .pass ps → ∀ q ∈ ps.plans, q.acted = true ∨ q.capture = none)
    (hl : ∀ ls, y.rc.setup ≠ .live ls) (hm : y.da.surveyMask = 0) (hr : y.da.served = some r) :
    (b.setDrv d y).endPass d full =
      (b.setDrv d (Drive.passLeft { y with
        rc := { y.rc with setup := .none, shift := 0 }, da := { y.da with wbuf := .empty } })).enginePassEnd
        r.serial full false := by
  unfold Board.endPass
  rw [Board.withdraw_acted hs hl, Board.dropWriteFill_none hw]
  rw [Board.reportSurvey_none (by rw [Board.setDrv_drv]; exact hm), Board.setDrv_drv]
  dsimp only
  rw [Board.examine_of_not_exam (show (b.setDrv d _).exam = false from he), Board.modDa_setDrv,
    hr, hm]
  rfl

/-- A pulse that ends a pass (R79). -/
theorem Board.sectorPulse_ends (wp : Bool) (h : (b.drv d).passCloses) (he : b.exam = false) (hw : b.noWriteFill d)
    (hm : (b.drv d).da.surveyMask = 0) {r : JobRef} (hr : (b.drv d).da.served = some r) :
    b.sectorPulse d wp =
      ((b.setDrv d ((b.drv d).passPulsed wp).passLeft).enginePassEnd r.serial (b.drv d).passFull false).decide d := by
  obtain ⟨hp, hp', hi, ho, hs, hends, hset, hlive⟩ := h
  have hpass : (b.drv d).passEnds = true := by
    unfold Drive.passEnds
    obtain h | h := hends <;> simp [ho, h]
  rw [Board.sectorPulse_closed wp hi hp]
  simp only [hpass, Bool.not_true, Bool.and_false, Bool.false_eq_true, if_false, if_true, hs]
  rw [Board.openSlot_none (by rw [Board.setDrv_drv]; exact hp')]
  unfold Board.passEnd
  rw [Board.endPass_closed (y := (b.drv d).pulsed wp) _ he hw hset hlive hm hr]
  rfl

end

end Sys2Proof.Machine
end

section
/-! PROOFS. What the engine makes of the end of a RELAY's pass, and a RELAY that finishes COMPLETE (O43). -/

namespace Sys2Proof.Machine

/-! ### A job's record replaced (R74, R90) -/

/-- The board with the record of the job of a serial replaced. -/
def Board.putJob (b : Board) (n : Nat) (c : Job) : Board := b.modJob n fun _ => c

/-- A job back in WAITING, PATIENT, from a time on (R74). -/
def Job.waits (j : Job) (now : Time) : Job := { j with state := .waiting, level := .patient, since := now }

section
variable {b : Board} {n : Nat} {c j : Job}

theorem Board.putJob_modJob (hc : c.serial = n) (f : Job → Job) : (b.putJob n c).modJob n f = b.putJob n (f c) :=
  Board.modJob_modJob b n f fun _ _ => hc

theorem Board.putJob_rewait (hc : c.serial = n) : (b.putJob n c).rewait n = b.putJob n (c.waits b.now) :=
  Board.putJob_modJob hc _

theorem Board.putJob_job (hc : c.serial = n) (hj : b.job n = some j) : (b.putJob n c).job n = some c := by
  unfold Board.job at hj
  unfold Board.job Board.putJob Board.modJob
  dsimp only
  generalize b.re.jobs = l at hj
  induction l with
  | nil => cases hj
  | cons i is ih =>
    by_cases hi : i.serial = n
    · rw [List.map_cons, if_pos hi, List.find?_cons_of_pos (by simpa using hc)]
    · rw [List.find?_cons_of_neg (by simpa using hi)] at hj
      rw [List.map_cons, if_neg hi, List.find?_cons_of_neg (by simpa using hi), ih hj]

/-! ### The end of a RELAY's pass (R105, R106, R107) -/

/-- A job with its pass counted (R79, R90). -/
def Job.counted (j : Job) (full : Bool) : Job :=
  { j with total := satInc j.total, abandoned := if full then j.abandoned else satInc j.abandoned }

theorem Board.enginePassEnd_relay (hj : b.job n = some j) (hk : j.kind = .relay)
    (full found : Bool) :
    b.enginePassEnd n full found = (b.putJob n (j.counted full)).relayEnd (j.counted full) full := by
  unfold Board.enginePassEnd
  rw [hj]
  dsimp only
  split
  · next h => cases hk.symm.trans h
  · next h => cases hk.symm.trans h
  · rfl

/-- Whether every sector of a RELAY has a source (R105). -/
def Board.allSourced (b : Board) (j : Job) : Bool :=
  j.relay.all fun q => (b.ts.entry (j.track.addr q.sector)).any (!·.damaged) || q.image.isSome

theorem Board.prepareCheck_eq (hk : c.kind = .relay) (hp : c.relayStep = .prepare) :
    b.prepareCheck c = if b.allSourced c then { c with relayStep := .write, stepPass := 0 } else c := by
  have hall : (c.relay.all fun r => Decidable.decide (b.sourceOf c.track r ≠ .none)) = b.allSourced c := by
    refine congrArg c.relay.all (funext fun r => ?_)
    rw [Bool.eq_iff_iff, decide_eq_true_eq, Ne, Board.sourceOf_none, Bool.not_eq_false]
  unfold Board.prepareCheck
  rw [if_pos ⟨hk, hp⟩, hall]

/-- A RELAY with a PREPARE pass counted at its step (R105). -/
def Job.prepareCounted (j : Job) (full : Bool) : Job :=
  { j with stale := false, stepPass := if full then j.stepPass + 1 else j.stepPass }

section
variable (hp : c.relayStep = .prepare)
include hp

theorem Board.relayEnd_prepare (full : Bool) :
    b.relayEnd c full =
      let j1 := b.prepareCheck (c.prepareCounted full)
      let b1 := b.modJob c.serial fun _ => j1
      if j1.relayStep = .prepare ∧ 3 ≤ j1.stepPass then b1.finish c.serial .failedUnreadable
      else b1.rewait c.serial := by
  unfold Board.relayEnd
  split
  · rfl
  · next h => cases hp.symm.trans h
  · next h => cases hp.symm.trans h

theorem Board.relayEnd_prepared (hk : c.kind = .relay) (hs : b.allSourced c = true) :
    (b.putJob c.serial c).relayEnd c true =
      b.putJob c.serial (Job.waits { c with stale := false, relayStep := .write, stepPass := 0 } b.now) := by
  have hcheck : (b.putJob c.serial c).prepareCheck (c.prepareCounted true) =
      { c with stale := false, relayStep := .write, stepPass := 0 } :=
    (Board.prepareCheck_eq (b := b.putJob c.serial c) (c := c.prepareCounted true) hk hp).trans (if_pos hs)
  rw [Board.relayEnd_prepare hp, hcheck]
  dsimp only
  rw [if_neg (fun h => by cases h.1), Board.putJob_modJob rfl]
  exact Board.putJob_rewait rfl

theorem Board.relayEnd_missing (hk : c.kind = .relay) (hs : b.allSourced c = false) (hn : c.stepPass < 2) :
    (b.putJob c.serial c).relayEnd c true =
      b.putJob c.serial (Job.waits { c with stale := false, stepPass := c.stepPass + 1 } b.now) := by
  have hcheck : (b.putJob c.serial c).prepareCheck (c.prepareCounted true) = c.prepareCounted true :=
    (Board.prepareCheck_eq (b := b.putJob c.serial c) (c := c.prepareCounted true) hk hp).trans
      (if_neg (by rw [show (b.putJob c.serial c).allSourced (c.prepareCounted true) = false from hs]; decide))
  have hmore : ¬ 3 ≤ (c.prepareCounted true).stepPass := by
    change ¬ 3 ≤ c.stepPass + 1
    omega
  rw [Board.relayEnd_prepare hp, hcheck]
  dsimp only
  rw [if_neg (fun h => hmore h.2), Board.putJob_modJob rfl]
  exact Board.putJob_rewait rfl

end

section
variable (hw : c.relayStep = .write) (hf : c.fatal = false)
include hw hf

theorem Board.relayEnd_write (full : Bool) :
    b.relayEnd c full =
      if full && !c.stale then
        (b.modJob c.serial fun j => { j with
          relayStep := .verify, stepPass := 0,
          relay := j.relay.map fun r => { r with verified := false } }).rewait c.serial
      else (b.modJob c.serial fun j => { j with stale := false }).rewait c.serial := by
  unfold Board.relayEnd
  split
  · next h => cases hw.symm.trans h
  · exact if_neg (by rw [hf]; decide)
  · next h => cases hw.symm.trans h

theorem Board.relayEnd_written (hs : c.stale = false) :
    (b.putJob c.serial c).relayEnd c true =
      b.putJob c.serial (Job.waits { c with
        relayStep := .verify, stepPass := 0, relay := c.relay.map fun q => { q with verified := false } } b.now) := by
  rw [Board.relayEnd_write hw hf, if_pos (by rw [hs]; rfl), Board.putJob_modJob rfl]
  exact Board.putJob_rewait rfl

theorem Board.relayEnd_abandoned :
    (b.putJob c.serial c).relayEnd c false = b.putJob c.serial (Job.waits { c with stale := false } b.now) := by
  rw [Board.relayEnd_write hw hf, if_neg (by rw [Bool.false_and]; decide), Board.putJob_modJob rfl]
  exact Board.putJob_rewait rfl

end

section
variable (hv : c.relayStep = .verify) (hs : c.stale = false)
include hv hs

theorem Board.relayEnd_verify (full : Bool) :
    b.relayEnd c full =
      if c.relay.all (·.verified) then b.finish c.serial .complete
      else
        let n := if full then c.stepPass + 1 else c.stepPass
        let b1 := b.modJob c.serial fun j => { j with stepPass := n }
        if 2 ≤ n then b1.finish c.serial (.failedVerify c.unverified) else b1.rewait c.serial := by
  unfold Board.relayEnd
  split
  · next h => cases hv.symm.trans h
  · next h => cases hv.symm.trans h
  · exact if_neg (by rw [hs]; decide)

theorem Board.relayEnd_unverified (hr : c.relay.all (·.verified) = false) (hz : c.stepPass = 0) :
    (b.putJob c.serial c).relayEnd c true = b.putJob c.serial (Job.waits { c with stepPass := 1 } b.now) := by
  rw [Board.relayEnd_verify hv hs, if_neg (by rw [hr]; decide), if_pos rfl, hz]
  dsimp only
  rw [if_neg (by decide), Board.putJob_modJob rfl]
  exact Board.putJob_rewait rfl

theorem Board.relayEnd_verified (hr : c.relay.all (·.verified) = true) (full : Bool) :
    b.relayEnd c full = b.finish c.serial .complete := by
  rw [Board.relayEnd_verify hv hs, if_pos hr]

end

/-! ### A RELAY that finishes COMPLETE (R103, R108, R112) -/

/-- An examination that is asked for with auto-salvage off files nothing (R103). -/
theorem Board.examine_noAuto (h : b.noAuto) : b.examine = { b with exam := false } := by
  cases he : b.exam with
  | false => rw [Board.examine_of_not_exam he, ← he]
  | true =>
    have hwalk (x : Board) (hx : x.noAuto) : x.walkSuspects = x := by
      unfold Board.walkSuspects
      simp only [List.foldl_cons, List.foldl_nil, hx, Bool.false_and, Bool.false_eq_true, if_false]
    unfold Board.examine Board.examineFor
    rw [if_pos he, hwalk { b with exam := false } h]
    unfold Board.examineFor
    rfl

/-- An entry PLACED and not exported (R108). -/
def KeepEntry.placed (e : KeepEntry) : KeepEntry := { e with kind := .placed, exported := false }

/-- The entries of a drive placed, where its emit buffer is INVALID. -/
theorem Board.placeEntries_eq {d : DriveNo} (l : List KeepEntry) (hd : ∀ e ∈ l, e.addr.drive = d)
    (hb : (b.drv d).lp.buf.state = .invalid) :
    l.foldl (fun b e => b.placeEntry e.addr) b =
      { b with ts := { b.ts with dir := b.ts.dir.map fun e => if e.addr ∈ l.map (·.addr) then e.placed else e } } := by
  induction l generalizing b with
  | nil => simp
  | cons a l ih =>
    have hplace : b.placeEntry a.addr = b.modEntry a.addr KeepEntry.placed := by
      unfold Board.placeEntry Board.entryChanged
      dsimp only
      rw [hd a List.mem_cons_self, Board.modEntry_drv]
      exact if_pos (.inr (.inr hb))
    rw [List.foldl_cons, hplace, ih (b := b.modEntry a.addr KeepEntry.placed)
      (fun e he => hd e (List.mem_cons_of_mem a he)) (by rw [Board.modEntry_drv]; exact hb)]
    unfold Board.modEntry
    simp only [List.map_map]
    congr 3
    funext e
    by_cases he : e.addr = a.addr
    · have hp : e.placed.addr = a.addr := he
      have hpp : e.placed.placed = e.placed := rfl
      simp [he, hp, hpp]
    · simp [he]

theorem foldl_unchanged {α β : Type} {f : β → α → β} {l : List α} {x : β} (h : ∀ a ∈ l, ∀ x, f x a = x) :
    l.foldl f x = x := by
  induction l with
  | nil => rfl
  | cons a l ih =>
    rw [List.foldl_cons, h a List.mem_cons_self]
    exact ih fun b hb => h b (List.mem_cons_of_mem a hb)

theorem Board.relayEntries_retained {d : DriveNo} (hr : c.retain = true) (hd : c.drive = d)
    (hb : (b.drv d).lp.buf.state = .invalid) (hdir : (b.ts.dir.map (·.addr)).Nodup)
    (hi : ∀ q ∈ c.relay, q.image = none) :
    b.relayEntries c = { b with
      ts := { b.ts with dir := b.ts.dir.map fun e =>
        if e.addr.track = c.track ∧ e.isDiverted then e.placed else e },
      re := { b.re with suspects := b.re.suspects.filter (·.track ≠ c.track) } } := by
  have hmem (e : KeepEntry) (he : e ∈ b.ts.dir) :
      e.addr ∈ (((b.ts.dir.filter fun e => e.addr.track = c.track && !e.damaged).filter
        (·.kind = .diverted)).map (·.addr)) ↔ e.addr.track = c.track ∧ e.isDiverted := by
    unfold KeepEntry.isDiverted
    constructor
    · intro h
      obtain ⟨f, hf, hfe⟩ := List.mem_map.1 h
      have hfd := (List.mem_filter.1 (List.mem_filter.1 hf).1).1
      obtain rfl := List.inj_on_of_nodup_map hdir hfd he hfe
      simpa [he, and_assoc, and_comm, and_left_comm] using hf
    · intro h
      exact List.mem_map_of_mem (by simpa [he, and_assoc, and_comm, and_left_comm] using h)
  unfold Board.relayEntries
  dsimp only
  rw [if_pos hr, foldl_unchanged (l := c.relay) (fun q hq x => by rw [hi q hq]),
    Board.placeEntries_eq (d := d) _ (fun e he => ?_) hb]
  · rw [List.map_congr_left fun e he => if_congr (hmem e he) rfl rfl]
  · have ht := (List.mem_filter.1 (List.mem_filter.1 he).1).2
    rw [Bool.and_eq_true, decide_eq_true_eq] at ht
    exact (congrArg Track.drive ht.1).trans hd

/-- A RELAY with nothing set aside, no image held and no solve finishes COMPLETE in its pass (R112). -/
theorem Board.finishCore_relay {d : DriveNo} {r : JobRef} (hj : b.job n = some c) (hk : c.kind = .relay)
    (hr : c.retain = true) (hd : c.drive = d) (hb : (b.drv d).lp.buf.state = .invalid)
    (hdir : (b.ts.dir.map (·.addr)).Nodup) (hq : ∀ q ∈ c.relay, q.aside = none ∧ q.image = none)
    (hs : c.sectors = []) (hsolve : b.noSolve n) (ho : (b.drv d).da.owner = .enginePass)
    (hserved : (b.drv d).da.served = some r) (hrn : r.serial = n) :
    b.finishCore n .complete = Board.modDa { b with
      exam := true,
      out := b.out ++ [⟨some c.drive, b.now, .jobDone c .complete⟩],
      ts := { b.ts with dir := b.ts.dir.map fun e =>
        if e.addr.track = c.track ∧ e.isDiverted then e.placed else e },
      re := { b.re with
        jobs := b.re.jobs.filter (·.serial ≠ n), suspects := b.re.suspects.filter (·.track ≠ c.track) } } d
      fun da => { da with atBoundary := true } := by
  have hask (x : Board) (hx : x.drives = b.drives) :
      x.askEnd d n = x.modDa d fun da => { da with atBoundary := true } := by
    have hxd : x.drv d = b.drv d := congrArg (Quad.get · d) hx
    unfold Board.askEnd
    simp [hxd, hserved, hrn, ho]
  obtain ⟨hqueue, hflight⟩ := hsolve
  have hunqueue (x : Board) (hx : x.su = b.su) : x.unqueueJob n = x := by
    unfold Board.unqueueJob
    rw [List.filter_eq_self.2 fun q hm => decide_eq_true (hqueue q (hx ▸ hm))]
  have hdiscard (x : Board) (hx : x.su = b.su) : x.discardSolve n = x := by
    unfold Board.discardSolve
    rw [hx]
    split
    · next f hf => exact if_neg (hflight f hf)
    · rfl
  have hcaptures (x : Board) : x.freeCaptures c = x := by
    have hown : (c.relay.flatMap fun r => r.aside.toList ++ (r.image.map (·.slot)).toList) = [] :=
      List.flatMap_eq_nil_iff.2 fun q hm => by obtain ⟨h1, h2⟩ := hq q hm; rw [h1, h2]; rfl
    unfold Board.freeCaptures
    simp [hs, hown]
  have hreserve (x : Board) : x.freeReservations c = x := by
    unfold Board.freeReservations
    rw [hs]
    rfl
  have hjob (x : Board) (hx : x.re.jobs = b.re.jobs) : (x.job n).getD c = c := by
    unfold Board.job at hj ⊢
    rw [hx, hj]
    rfl
  unfold Board.finishCore
  simp only [hj, hk]
  rw [Board.relayEntries_retained hr hd hb hdir fun q hm => (hq q hm).2, hd, hask, hunqueue, hdiscard, hjob,
    hcaptures, hreserve, if_neg (fun h => h.2.1 rfl)]
  all_goals rfl

end

end Sys2Proof.Machine
end

section
/-! PROOFS. The ends of a fill and of a RELAY's store work, and its passes' starts, slots and ends (O43). -/

namespace Sys2Proof.Machine

theorem emitCheck_iff {a : Addr} {img : List Word} :
    emitCheck a img = true ↔ (imageHeader img).cyl = a.cyl.val ∧ (imageHeader img).head = a.head.val ∧
      (imageHeader img).format = 0 ∧ (imageHeader img).sector = a.sector.val ∧ soundImage img = true := by
  simp [emitCheck, and_assoc]

/-! ### The set-up of a RELAY's pass (R62, R105, R107) -/

/-- A drive whose channel has the set-up of a pass of its plan (R62). -/
def Drive.givenPass (x : Drive) (tag : PassTag) (passNo : Nat) (plans : List SlotPlan) : Drive :=
  { x with rc := { x.rc with
      shift := x.da.plan.shift,
      setup := .pass { cyl := x.da.plan.cyl, head := x.da.plan.head, shift := x.da.plan.shift, tag := tag,
                       passNo := passNo, plans := plans } } }

section
variable {b : Board} {d : DriveNo} {y : Drive} {j : Job} (hk : j.kind = .relay)
include hk

theorem Board.givePass_verify (hv : j.relayStep = .verify) :
    (b.setDrv d y).givePass d j =
      b.setDrv d (y.givenPass .verify (satInc j.total) (checkPlans y.profile.sectors)) := by
  unfold Board.givePass
  simp only [hk, hv]
  rw [Board.setDrv_drv, Board.modRc_setDrv]
  rfl

theorem Board.givePass_prepare (hv : j.relayStep = .prepare) (hp : b.ts.pool.Pairwise (· < ·))
    (hroom : b.ts.pool.length + (b.sourceless j.track j.relay).length ≤ Config.allSlots - Config.keepSlots) :
    (b.setDrv d y).givePass d j =
      let missing := b.sourceless j.track j.relay
      let slots := gaps missing.length b.ts.pool
      (b.withAsides j.serial missing slots).setDrv d (y.givenPass .prepare (satInc j.total)
        (List.zipWith (captureInto j.serial) missing slots)) := by
  unfold Board.givePass
  simp only [hk, hv]
  rw [Board.preparePlans_eq (b := b.setDrv d y) hp hroom, Board.setDrv_drv]
  exact Board.modRc_setDrv (b.withAsides j.serial _ _) d y _

end

theorem Tracker.advance_doubt (rt : Tracker) (n : Nat) : (rt.advance n).doubt = rt.doubt := by
  unfold Tracker.advance
  split_ifs <;> rfl

/-- A drive handed back after its pass, whether or not its job finished in it (R80, R84). -/
theorem Board.decide_passOver {b : Board} {d : DriveNo} {x : Drive} (h : x.passOver) (wp atBoundary : Bool) :
    (b.setDrv d { (x.passPulsed wp).passLeft with
        da := { (x.passPulsed wp).passLeft.da with atBoundary := atBoundary } }).decide d =
      b.setDrv d ((x.passPulsed wp).handedBack b.now) := by
  obtain ⟨-, hheld, hh, hl, hoff, hcyl⟩ := h
  have hdoubt : (x.passPulsed wp).rt.doubt = x.rt.doubt := Tracker.advance_doubt _ _
  refine (Board.decide_handsBack ?_ ?_ ?_ ?_ ?_ ?_).trans ?_
  · exact hheld
  · exact hh
  · exact hl.imp_right fun h => ⟨h.1, hdoubt.trans h.2⟩
  · exact hoff
  · exact hcyl
  · rfl
  · rfl

/-- A pulse that ends a RELAY's pass, full unless a slot of it was missed (R79, R141). -/
theorem Board.sectorPulse_relayEnds {b : Board} {d : DriveNo} {r : JobRef} {j : Job} {full : Bool} (wp : Bool)
    (h : (b.drv d).passOver) (he : b.exam = false) (hw : b.noWriteFill d) (hm : (b.drv d).da.surveyMask = 0)
    (hn : (b.drv d).profile.sectors ≤ (b.drv d).da.slots) (hserved : (b.drv d).da.served = some r)
    (hr : j.serial = r.serial) (hj : b.job j.serial = some j) (hk : j.kind = .relay)
    (hfull : (b.drv d).da.missed = !full) :
    b.sectorPulse d wp =
      (((b.setDrv d ((b.drv d).passPulsed wp).passLeft).putJob j.serial (j.counted full)).relayEnd
        (j.counted full) full).decide d := by
  have hpass : (b.drv d).passFull = full := by
    unfold Drive.passFull
    rw [hfull, decide_eq_true hn, Bool.true_and, Bool.not_not]
  obtain ⟨hcloses, -⟩ := h
  rw [Board.sectorPulse_ends wp hcloses he hw hm hserved, ← hr, hpass,
    Board.enginePassEnd_relay (b := b.setDrv d _) hj hk]

theorem filter_replaced (l : List Job) {n : Nat} {c : Job} (hc : c.serial = n) :
    (l.map fun i => if i.serial = n then c else i).filter (·.serial ≠ n) = l.filter (·.serial ≠ n) := by
  induction l with
  | nil => rfl
  | cons i is ih =>
    by_cases hi : i.serial = n
    · simpa [hi, hc] using ih
    · simpa [hi] using ih

/-- A RELAY that finishes COMPLETE as its last pass ends, and the hand-back (R80, R108, R112). -/
theorem Board.finish_passOver {b : Board} {d : DriveNo} {x : Drive} {j c : Job} {r : JobRef} (h : x.passOver)
    (wp : Bool) (hserved : x.da.served = some r) (hr : r.serial = c.serial) (hj : b.job c.serial = some j)
    (hk : c.kind = .relay) (hret : c.retain = true) (hd : c.drive = d) (hbuf : x.lp.buf.state = .invalid)
    (hdir : (b.ts.dir.map (·.addr)).Nodup) (hq : ∀ q ∈ c.relay, q.aside = none ∧ q.image = none)
    (hs : c.sectors = []) (hsolve : b.noSolve c.serial) (hauto : b.noAuto) :
    (((b.setDrv d (x.passPulsed wp).passLeft).putJob c.serial c).finish c.serial .complete).decide d =
      Board.setDrv { b with
        exam := false,
        out := b.out ++ [⟨some c.drive, b.now, .jobDone c .complete⟩],
        ts := { b.ts with dir := b.ts.dir.map fun e =>
          if e.addr.track = c.track ∧ e.isDiverted then e.placed else e },
        re := { b.re with
          jobs := b.re.jobs.filter (·.serial ≠ c.serial),
          suspects := b.re.suspects.filter (·.track ≠ c.track) } } d ((x.passPulsed wp).handedBack b.now) := by
  obtain ⟨⟨-, -, -, howner, -⟩, -⟩ := id h
  let left := (x.passPulsed wp).passLeft
  have hleft : ((b.setDrv d left).putJob c.serial c).drv d = left := Board.setDrv_drv _ _ _
  let done (jobs : List Job) : Board := { b with
    exam := false,
    out := b.out ++ [⟨some c.drive, b.now, .jobDone c .complete⟩],
    ts := { b.ts with dir := b.ts.dir.map fun e => if e.addr.track = c.track ∧ e.isDiverted then e.placed else e },
    re := { b.re with jobs := jobs, suspects := b.re.suspects.filter (·.track ≠ c.track) } }
  let replaced := (b.re.jobs.map fun i => if i.serial = c.serial then c else i).filter (·.serial ≠ c.serial)
  unfold Board.finish
  rw [Board.finishCore_relay (b := (b.setDrv d left).putJob c.serial c) (d := d) (r := r) (Board.putJob_job rfl hj)
    hk hret hd (by rw [hleft]; exact hbuf) hdir hq hs hsolve (by rw [hleft]; exact howner)
    (by rw [hleft]; exact hserved) hr, Board.examine_noAuto]
  · have hasked := Board.modDa_setDrv (done replaced) d left fun da => { da with atBoundary := true }
    refine (congrArg (Board.decide · d) hasked).trans ((Board.decide_passOver h wp true).trans ?_)
    exact congrArg (fun l => (done l).setDrv d ((x.passPulsed wp).handedBack b.now)) (filter_replaced _ rfl)
  · exact hauto

/-! ### A slot of a WRITE pass without its image (R106, R131, R141) -/

theorem Board.fatalWrite_setDrv (b : Board) (d : DriveNo) (y : Drive) (n : Nat) :
    (b.setDrv d y).fatalWrite d n = (b.modJob n fun j => { j with fatal := true }).setDrv d
      { y with da := { y.da with atBoundary := true, wbuf := .empty } } :=
  Board.modDa_setDrv (b.modJob n fun j => { j with fatal := true }) d y _

/-- Whether an operation is a write-buffer fill of a drive (R141). -/
def StoreOp.fillsFor (op : StoreOp) (d : DriveNo) : Bool := match op.kind with
  | .writeFill e _ _ => e = d
  | _ => false

theorem Board.missSlot_setDrv {b : Board} (d : DriveNo) (y : Drive)
    (h : ∀ op ∈ b.ts.ops, op.fillsFor d = true → op.wrote = []) :
    (b.setDrv d y).missSlot d = Board.setDrv { b with
      exam := b.exam ||
        Decidable.decide (∃ q ∈ b.ts.keep, freedBy (b.ts.ops.filter fun op => !op.fillsFor d) q),
      ts := { b.ts with
        ops := b.ts.ops.filter fun op => !op.fillsFor d,
        keep := b.ts.keep.filter fun q => ¬ freedBy (b.ts.ops.filter fun op => !op.fillsFor d) q } } d
      { y with da := { y.da with wbuf := .empty, atBoundary := true, missed := true } } := by
  have hdrop : (b.setDrv d y).dropWriteFill d =
      ((b.dropOps (·.fillsFor d)).setDrv d y).modDa d fun da => { da with wbuf := .empty } := rfl
  unfold Board.missSlot
  rw [hdrop, Board.modDa_setDrv, Board.modDa_setDrv, Board.dropOps_unwritten h]

/-! ### A slot of a WRITE pass with its image (R4, R106) -/

/-- The board with slot k of a WRITE pass being written from an image, and the write buffer as given. -/
def Board.writesSlot (b : Board) (d : DriveNo) (y : Drive) (n k : Nat) (fromImage : Bool) (img : List Word)
    (w : WriteBuffer) : Board :=
  (b.modJob n (Job.writes · k fromImage)).setDrv d
    { y with da := { y.da with writing := some k, writeImage := img, wbuf := w } }

section
variable {b : Board} {d : DriveNo} {y : Drive} {n k : Nat} {fromImage : Bool} {img : List Word} {j : Job}

theorem Board.writesSlot_job {w : WriteBuffer} (hj : b.job n = some j) :
    (b.writesSlot d y n k fromImage img w).job n = some (j.writes k fromImage) := by
  have hmod := Board.job_modJob b n (f := (Job.writes · k fromImage)) fun _ => rfl
  rw [hj] at hmod
  exact hmod

theorem Board.writesSlot_buffer (w w' : WriteBuffer) :
    (b.writesSlot d y n k fromImage img w).modDa d (fun da => { da with wbuf := w' }) =
      b.writesSlot d y n k fromImage img w' :=
  Board.modDa_setDrv (b.modJob n (Job.writes · k fromImage)) d _ _

theorem Board.writesSlot_fatal (w : WriteBuffer) :
    (b.writesSlot d y n k fromImage img w).fatalWrite d n =
      (b.modJob n fun j => { j.writes k fromImage with fatal := true }).setDrv d
        { y with da := { y.da with writing := some k, writeImage := img, wbuf := .empty, atBoundary := true } } := by
  refine (Board.fatalWrite_setDrv (b.modJob n (Job.writes · k fromImage)) d _ n).trans ?_
  rw [Board.modJob_modJob b n (f := (Job.writes · k fromImage)) _ fun _ h => h]

theorem Job.writes_image (m : Nat) :
    ((j.writes k fromImage).relayRec m).bind (·.image) = (j.relayRec m).bind (·.image) :=
  Job.relayImage_modRelay j k m (fun _ => rfl) fun _ => rfl

end

theorem completes_cylinder {d : DriveNo} {s : State} {b : Board} (h : s.board.onCylinder d = b) :
    Completes (.driveOnCylinder d) s b := completes_of_onBoard (f := fun b => b.onCylinder d) rfl h

theorem completes_pulse {d : DriveNo} {wp : Bool} {s : State} {b : Board} (h : s.board.sectorPulse d wp = b) :
    Completes (.sectorPulse d wp) s b := completes_of_onBoard (f := fun b => b.sectorPulse d wp) rfl h

/-- Settles O43: each end, start and slot as its equation above says; a pass that ends leaves the job by `relayEnd`
and the drive by the hand-back. -/
theorem fillsAndCopiesEnd : Obligations.FillsAndCopiesEnd := by
  unfold Obligations.FillsAndCopiesEnd
  intro wanted
  refine ⟨?_, ?_, ?_, ?_⟩
  · intro d op s x img hops hk ht hd hcyl hhead hformat hsector hsound
    exact completes_of_onBoard (f := fun b => b.fillDone d) rfl
      ((Board.fillDone_checked hops hd ht hk
        (emitCheck_iff.2 ⟨hcyl, hhead, hformat, hsector, hsound⟩)).trans (Board.modLp_eq _ _ _))
  · intro op s rec' hops ht hs hd
    refine ⟨fun d k fromImage j r hk hr hj => ?_, fun a source hk => ?_⟩
    · refine completes_of_onBoard (f := fun b => b.writeFillDone d) rfl
        ((Board.writeFillDone_built hops hd ht hk (j := j) ?_).trans (Board.modDa_eq _ _ _))
      unfold Board.servedJob
      rw [hr]
      exact hj
    · exact completes_of_onBoard (f := fun b => b.copyDone op.slot) rfl (Board.copyDone_freed hops hd ht hk hs)
  · intro d r j s x plan sectors hl hw ha hp hoff hplan hdoubt hserved hj hk hjr begun pass sourced missing
    have hserved' : s.board.servedJob d = some j := by
      unfold Board.servedJob
      rw [show (s.board.drv d).da.served = some r from hserved]
      exact hj
    have hstart : s.board.onCylinder d = (s.board.setDrv d x.positioned).passStart d j :=
      Board.onCylinder_starts hl hw ha hp (hoff.trans hplan.symm) hdoubt hserved'
    have hread (h : j.relayStep ≠ .write) :
        s.board.onCylinder d = (s.board.setDrv d (x.inPass .read)).givePass d j :=
      hstart.trans (Board.passStart_read fun hw => h hw.2)
    have hpass (kind : PassKind) : s.board.setDrv d (x.inPass kind) = begun kind .empty x.rc := by
      simp only [begun, ← hplan]
      rfl
    have hgiven (tag : PassTag) (plans : List SlotPlan) :
        s.board.setDrv d ((x.inPass .read).givenPass tag (satInc j.total) plans) = pass tag plans := by
      simp only [pass, begun, ← hplan]
      rfl
    have hbuf (w : WriteBuffer) :
        (begun .write .empty x.rc).modDa d (fun da => { da with wbuf := w }) = begun .write w x.rc :=
      Board.modDa_setDrv s.board d _ _
    refine ⟨fun hv => ?_, fun hw => ?_, fun hv hpool hlow hroom => ?_⟩
    · refine completes_cylinder ((hread (by rw [hv]; decide)).trans ?_)
      exact (Board.givePass_verify hk hv).trans (hgiven _ _)
    · intro k
      have hfill : s.board.onCylinder d = (begun .write .empty x.rc).startWriteFill d r.serial k := by
        rw [hstart, Board.passStart_write ⟨hk, hw⟩, hpass, hjr]
      refine ⟨fun e he hg => ?_, fun c hn hc => ?_⟩
      · refine completes_cylinder (hfill.trans ?_)
        rw [Board.startWriteFill_entry (b := begun .write .empty x.rc) hj he hg, hbuf]
        rfl
      · refine completes_cylinder (hfill.trans ?_)
        rw [Board.startWriteFill_image (b := begun .write .empty x.rc) hj hn hc, hbuf, hbuf]
        rfl
    · refine ⟨gaps missing.length s.board.ts.pool, ?_⟩
      intro free b
      refine ⟨gaps_length _ _, gaps_ordered hpool hroom, fun n hn => ?_, ?_⟩
      · obtain ⟨hfree, hleast⟩ := mem_gaps hpool hroom hn
        exact ⟨hfree, fun m hm ⟨hmk, _, hmp⟩ => hleast m hm hmk hmp⟩
      · refine completes_cylinder ((hread (by rw [hv]; decide)).trans ?_)
        rw [Board.givePass_prepare hk hv hpool hroom, ← hjr]
        let aside := s.board.withAsides j.serial missing (gaps missing.length s.board.ts.pool)
        exact congrArg (fun c : Board => { c with ts := aside.ts, re := aside.re }) (hgiven _ _)
  · intro d wp r j s x now sectors rt quiet jobs hserved hj hk hjr
    refine ⟨?_, ?_⟩
    · intro hp hp' hi ho hs hkind hb hn k slot
      have hpulse : s.board.sectorPulse d wp = (s.board.setDrv d (x.pulsed wp).slotOn).openWriteSlot d k :=
        Board.sectorPulse_writing wp hi hp hp' ho hs hkind hb hn
      refine ⟨fun fromImage img hw => ?_, fun hw => ?_⟩
      · intro re written
        let slotOf := s.board.writesSlot d (x.pulsed wp).slotOn r.serial k fromImage img
        have hslot : s.board.sectorPulse d wp =
            if x.da.slots + 1 < sectors then (slotOf .empty).startWriteFill d r.serial ((k + 1) % sectors)
            else slotOf .empty :=
          hpulse.trans (Board.openWriteSlot_ready (y := (x.pulsed wp).slotOn) hw hserved)
        refine ⟨fun hlast => completes_pulse (hslot.trans (if_neg (by omega))), fun hmore => ?_⟩
        intro next entry image
        have hnext := hslot.trans (if_pos hmore)
        have hjob : (slotOf .empty).job r.serial = some (j.writes k fromImage) := Board.writesSlot_job hj
        refine ⟨fun e he hg => completes_pulse (hnext.trans ?_), fun c hn hc => completes_pulse (hnext.trans ?_),
          fun hn hc => completes_pulse (hnext.trans ?_)⟩
        · rw [Board.startWriteFill_entry hjob he hg, Board.writesSlot_buffer]
          rfl
        · rw [Board.startWriteFill_image hjob hn ((Job.writes_image _).trans hc), Board.writesSlot_buffer,
            Board.writesSlot_buffer]
          rfl
        · rw [Board.startWriteFill_sourceless hjob hn ((Job.writes_image _).trans hc)]
          exact Board.writesSlot_fatal .empty
      · intro fill ops freed b hops
        refine completes_pulse (hpulse.trans ?_)
        rw [Board.openWriteSlot_unready (by rw [Board.setDrv_drv]; exact hw)]
        exact Board.missSlot_setDrv d _ hops
    · intro hq hw hover hn hm ended counted ends missing
      obtain ⟨-, -, hexam, -⟩ := hq
      have hjob : s.board.job j.serial = some j := by rw [hjr]; exact hj
      have hrest (full : Bool) (i : Job) (hfull : x.da.missed = !full)
          (h : ((s.board.setDrv d (x.passPulsed wp).passLeft).putJob j.serial (j.counted full)).relayEnd
              (j.counted full) full =
            (s.board.setDrv d (x.passPulsed wp).passLeft).putJob j.serial (i.waits now)) : ends i := by
        refine completes_pulse
          ((Board.sectorPulse_relayEnds wp hover hexam hw hm hn hserved hjr hjob hk hfull).trans ?_)
        rw [h, hjr]
        exact Board.decide_passOver (b := s.board.putJob r.serial (i.waits now)) hover wp false
      refine ⟨fun hv hmiss => ⟨fun hs hz => ?_, fun hs => ?_⟩, fun hv hf => ⟨fun hmiss hs => ?_, fun hmiss => ?_⟩,
        fun hv hmiss hs => ⟨fun hun hz => ?_, fun hall hsec hret hd hdir hbuf hauto hsolve => ?_⟩⟩
      · exact hrest true _ hmiss (Board.relayEnd_missing (c := j.counted true) hv hk hs hz)
      · exact hrest true _ hmiss (Board.relayEnd_prepared (c := j.counted true) hv hk (Bool.eq_true_of_not_eq_false hs))
      · exact hrest true _ hmiss (Board.relayEnd_written (c := j.counted true) hv hf hs)
      · exact hrest false _ hmiss (Board.relayEnd_abandoned (c := j.counted false) hv hf)
      · have hr : (j.counted true).relay.all (·.verified) = false := by
          obtain ⟨q, hq, hqv⟩ := hun
          exact List.all_eq_false.2 ⟨q, hq, by rw [hqv]; decide⟩
        exact hrest true _ hmiss (Board.relayEnd_unverified (c := j.counted true) hv hs hr hz)
      · have hr : (j.counted true).relay.all (·.verified) = true := List.all_eq_true.2 fun q hq => (hall q hq).1
        refine completes_pulse
          ((Board.sectorPulse_relayEnds wp hover hexam hw hm hn hserved hjr hjob hk (full := true) hmiss).trans ?_)
        rw [Board.relayEnd_verified (c := j.counted true) hv hs hr]
        exact (Board.finish_passOver (c := j.counted true) hover wp hserved hjr.symm hjob hk hret hd hbuf hdir
          (fun q hq => (hall q hq).2) hsec (hjr ▸ hsolve) hauto).trans (by rw [← hjr]; rfl)

end Sys2Proof.Machine
end

section
/-! PROOFS. The tracker at an index pulse in each of its states, and the expiry of its watchdog (O29). -/

namespace Sys2Proof.Machine

/-! ### A drive's tracker replaced, with what is raised -/

/-- The board with one drive's tracker replaced and the notices queued. -/
def Board.tracked (b : Board) (d : DriveNo) (rt : Tracker) (out : List Note) : Board :=
  { b.setDrv d { b.drv d with rt := rt } with out := out }

section
variable (b : Board) (d : DriveNo) (rt : Tracker) (out : List Note)

@[simp] theorem Board.tracked_drv : (b.tracked d rt out).drv d = { b.drv d with rt := rt } :=
  Board.setDrv_drv _ _ _

theorem Board.modRt_eq_tracked (f : Tracker → Tracker) : b.modRt d f = b.tracked d (f (b.drv d).rt) b.out := rfl

@[simp] theorem Board.tracked_modRt (f : Tracker → Tracker) :
    (b.tracked d rt out).modRt d f = b.tracked d (f rt) out := by
  rw [Board.modRt_eq, Board.tracked_drv]
  exact congrArg (fun c : Board => { c with out := out }) (b.setDrv_setDrv d _ _)

@[simp] theorem Board.tracked_note (n : NoticeBody) :
    (b.tracked d rt out).note (some d) n = b.tracked d rt (out ++ [⟨some d, b.now, n⟩]) := rfl

end

/-! ### The index correction (R43, R51) -/

/-- The tracker after the index correction: at the last sector, a SLIP counted, and the wrap to come suppressed when
less than half a revolution had been counted. -/
def Tracker.corrected (rt : Tracker) (sectors : Nat) : Tracker :=
  { rt with
    position := sectors - 1,
    suppress := Decidable.decide (rt.position + 1 ≠ sectors ∧ rt.position < sectors / 2),
    slipCount := if rt.position + 1 ≠ sectors then (rt.slipCount + 1) % 65536 else rt.slipCount }

theorem Tracker.correct_eq (rt : Tracker) (sectors : Nat) :
    rt.correct sectors = (rt.corrected sectors, Decidable.decide (rt.position + 1 ≠ sectors)) := by
  unfold Tracker.correct Tracker.corrected
  by_cases h : rt.position + 1 = sectors
  · subst h
    simp
  · simp [h]

/-- The SLIP notice of an index correction; none where the position was the last sector. -/
def Drive.slipNotes (x : Drive) (d : DriveNo) (now : Time) : List Note :=
  let fixed := x.rt.corrected x.profile.sectors
  if x.rt.position + 1 ≠ x.profile.sectors then
    [⟨some d, now, .slip false x.rt.position fixed.position (some fixed.suppress) x.rt.revCount fixed.slipCount⟩]
  else []

theorem Board.correctIndex_eq (b : Board) (d : DriveNo) :
    let x := b.drv d
    b.correctIndex d = b.tracked d (x.rt.corrected x.profile.sectors) (b.out ++ x.slipNotes d b.now) := by
  intro x
  unfold Board.correctIndex Drive.slipNotes
  dsimp only
  rw [Tracker.correct_eq]
  dsimp only
  rw [Board.modRt_eq_tracked]
  by_cases h : x.rt.position + 1 ≠ x.profile.sectors
  · rw [if_pos h, if_pos (decide_eq_true h), Board.tracked_note]
    rfl
  · rw [if_neg h, if_neg (mt of_decide_eq_true h), List.append_nil]

/-! ### Periods recorded and judged (R45, R46) -/

/-- The history keeps the last 8 periods. -/
theorem Tracker.record_eq {rt : Tracker} (h : rt.history.length ≤ 8) (period : Nat) (now : Time) :
    rt.record period now =
      { rt with history := (rt.history ++ [period]).drop (rt.history.length - 7), lastIndex := some now } := by
  unfold Tracker.record
  dsimp only
  rw [List.length_append, List.length_singleton]
  split_ifs with hfull
  · rw [show rt.history.length - 7 = 1 by omega]
  · rw [show rt.history.length - 7 = 0 by omega, List.drop_zero]

/-- The in-band run after one more period. -/
def Tracker.runWith (rt : Tracker) (p : Profile) (period : Nat) : Nat :=
  if p.inSpeedBand period then min 8 (rt.inBand + 1) else 0

section
variable {rt : Tracker} {p : Profile} {period : Nat}

theorem Tracker.average_withRun (n : Nat) : { rt with inBand := n }.average = rt.average := rfl

/-- With doubt clear the average alone is judged: in band, or not formed yet. -/
theorem Tracker.judge_good (hd : rt.doubt = false) (ha : ∀ a, rt.average = some a → p.inSpeedBand a = true) :
    rt.judge p period = ({ rt with inBand := rt.runWith p period, doubt := false }, none) := by
  unfold Tracker.judge
  dsimp only
  rw [Tracker.average_withRun, if_neg (by rw [hd]; decide), ← hd]
  cases h : rt.average with
  | none => rfl
  | some a => exact if_pos (ha a h)

theorem Tracker.judge_doubts {a : Nat} (hd : rt.doubt = false) (ha : rt.average = some a)
    (hband : p.inSpeedBand a = false) :
    rt.judge p period =
      ({ rt with inBand := rt.runWith p period, doubt := true }, some (.speedDoubt false (some a))) := by
  unfold Tracker.judge
  dsimp only
  rw [Tracker.average_withRun, if_neg (by rw [hd]; decide), ha]
  exact if_neg (by rw [hband]; decide)

/-- With doubt set the run alone is judged: short of eight periods doubt stays. -/
theorem Tracker.judge_doubting (hd : rt.doubt = true) (hr : rt.runWith p period < 8) :
    rt.judge p period = ({ rt with inBand := rt.runWith p period, doubt := true }, none) := by
  unfold Tracker.judge
  dsimp only
  rw [if_pos hd]
  refine (if_neg (Nat.ne_of_lt hr)).trans ?_
  exact congrArg (fun q => ({ rt with inBand := rt.runWith p period, doubt := q }, none)) hd

theorem Tracker.judge_clears {a : Nat} (hd : rt.doubt = true) (hr : rt.runWith p period = 8)
    (ha : rt.average = some a) :
    rt.judge p period = ({ rt with inBand := rt.runWith p period, doubt := false }, some (.speedGood a)) := by
  unfold Tracker.judge
  dsimp only
  rw [Tracker.average_withRun, if_pos hd, ha]
  exact if_pos hr

end

/-! ### The pulse in each state (R43, R44, R46, R49) -/

/-- The tracker at an index pulse in LOCKED before the period is judged: corrected, the period in the history. -/
def Tracker.timed (rt : Tracker) (sectors period : Nat) (now : Time) : Tracker :=
  { rt.corrected sectors with
    history := (rt.history ++ [period]).drop (rt.history.length - 7), lastIndex := some now }

section
variable {b : Board} {d : DriveNo}

theorem Board.indexPulse_searching (h : (b.drv d).rt.state = .searching) :
    b.indexPulse d = b.tracked d
      { (b.drv d).rt with
        position := (b.drv d).profile.sectors - 1, suppress := false, state := .locked, lastIndex := some b.now }
      b.out := by
  unfold Board.indexPulse
  dsimp only
  rw [h]
  rfl

section
variable {t : Time} (ht : (b.drv d).rt.lastIndex = some t)
include ht

theorem Board.indexPulse_freeRun (h : (b.drv d).rt.state = .freeRun) :
    b.indexPulse d = b.tracked d
      { (b.drv d).rt.corrected (b.drv d).profile.sectors with
        history := [], inBand := 0, lastIndex := some b.now, state := .locked }
      (b.out ++ (b.drv d).slipNotes d b.now ++ [⟨some d, b.now, .indexBack (b.since t) (b.drv d).rt.revCount⟩]) := by
  unfold Board.indexPulse
  dsimp only
  rw [h]
  unfold Board.indexFreeRun
  dsimp only
  rw [ht, Board.correctIndex_eq, Board.tracked_modRt, Board.tracked_note, Board.tracked_drv]
  rfl

variable (h : (b.drv d).rt.state = .locked) (hl : (b.drv d).rt.history.length ≤ 8) {rt : Tracker}
include h hl

/-- In LOCKED the judgement of the period decides what the pulse leaves and raises. -/
theorem Board.indexPulse_locked {note : Option NoticeBody}
    (hj : ((b.drv d).rt.timed (b.drv d).profile.sectors (b.since t) b.now).judge (b.drv d).profile (b.since t) =
      (rt, note)) :
    b.indexPulse d =
      let out := b.out ++ (b.drv d).slipNotes d b.now
      note.elim (b.tracked d rt out) fun n => (b.tracked d rt (out ++ [⟨some d, b.now, n⟩])).enterTaking d := by
  unfold Board.indexPulse
  dsimp only
  rw [h]
  unfold Board.indexLocked
  dsimp only
  have hrec : ((b.drv d).rt.corrected (b.drv d).profile.sectors).record (b.since t) b.now =
      (b.drv d).rt.timed (b.drv d).profile.sectors (b.since t) b.now :=
    Tracker.record_eq (rt := (b.drv d).rt.corrected _) hl _ _
  rw [ht, Option.getD_some, Board.correctIndex_eq, Board.tracked_modRt, hrec, Board.tracked_drv, hj]
  dsimp only
  rw [Board.tracked_modRt]
  cases note <;> rfl

end

/-! ### TAKING as doubt changes (R75, R76) -/

/-- No job is eligible on a drive whose speed is in doubt. -/
theorem Board.enterTaking_doubting (h : (b.drv d).rt.doubt = true) : b.enterTaking d = b := by
  unfold Board.enterTaking Board.pressing Board.eligible
  simp [h]

/-- A waiting PRESSING job of the drive needs a pass. -/
def Board.presses (b : Board) (d : DriveNo) : Bool :=
  b.re.jobs.any fun j => j.drive = d && j.state = .waiting && j.level = .pressing && j.needsPass

/-- With doubt clear, a mode that shares the drive leaves eligibility to the job itself. -/
theorem Board.pressing_shared (hd : (b.drv d).rt.doubt = false) (hm : (b.drv d).da.share.mode ≠ .liveOnly) :
    b.pressing d = b.presses d := by
  unfold Board.pressing Board.presses Board.eligible
  refine congrArg _ (funext fun j => ?_)
  simp [hd, hm, Bool.and_assoc, Bool.and_comm]

/-- The arbiter where such a job waits: out of LIVE_BUSY, under a mode that shares the drive, it is TAKING. -/
def Arbiter.pressed (da : Arbiter) (presses : Bool) : Arbiter :=
  if da.owner = .liveBusy ∧ presses ∧ (da.share.mode = .liveFirst ∨ da.share.mode = .salvageFirst) then
    { da with owner := .taking }
  else da

theorem Board.enterTaking_certain (hd : (b.drv d).rt.doubt = false) :
    b.enterTaking d = b.setDrv d { b.drv d with da := (b.drv d).da.pressed (b.presses d) } := by
  unfold Board.enterTaking Arbiter.pressed
  by_cases hm : (b.drv d).da.share.mode = .liveFirst ∨ (b.drv d).da.share.mode = .salvageFirst
  · have shares : (b.drv d).da.share.mode ≠ .liveOnly := by
      rcases hm with hm | hm <;> rw [hm] <;> decide
    simp only [hm, Board.pressing_shared hd shares, true_and, and_true]
    split_ifs
    · rfl
    · exact (b.setDrv_self d).symm
  · simp only [hm, false_and, and_false, if_false]
    exact (b.setDrv_self d).symm

theorem Board.tracked_enterTaking {rt : Tracker} {out : List Note} (hd : rt.doubt = false) :
    (b.tracked d rt out).enterTaking d =
      { b.setDrv d { b.drv d with rt := rt, da := (b.drv d).da.pressed (b.presses d) } with out := out } := by
  rw [Board.enterTaking_certain (by rw [Board.tracked_drv]; exact hd), Board.tracked_drv]
  exact congrArg (fun c : Board => { c with out := out }) (b.setDrv_setDrv d _ _)

/-! ### The watchdog (R47, R48) -/

theorem Board.watchdog_due {t : Time} (hs : (b.drv d).rt.state = .locked) (ht : (b.drv d).rt.lastIndex = some t)
    (hdue : 3 * (b.drv d).rt.average.getD (b.drv d).profile.period < 2 * b.since t) :
    b.watchdog d = b.tracked d { (b.drv d).rt with state := .freeRun, inBand := 0, doubt := true }
      (b.out ++ [⟨some d, b.now, .indexLost t (b.drv d).rt.revCount⟩] ++
        if (b.drv d).rt.doubt then [] else [⟨some d, b.now, .speedDoubt true (b.drv d).rt.average⟩]) := by
  have due : (b.drv d).rt.watchdogDue (b.drv d).profile (b.since t) = true := by
    simp [Tracker.watchdogDue, hs, hdue]
  have expires : b.watchdog d = b.watchdogExpire d t := by
    unfold Board.watchdog
    simp only [ht, due, if_true]
  rw [expires]
  unfold Board.watchdogExpire
  dsimp only
  rw [Board.modRt_eq_tracked, Board.tracked_note]
  split_ifs
  · rw [List.append_nil]
  · rw [Board.tracked_note]

end

/-- Settles O29: the pulse by the tracker's state, in LOCKED by how the period is judged. -/
theorem indexAndWatchdog : Obligations.IndexAndWatchdog := by
  unfold Obligations.IndexAndWatchdog
  intro d s x p now put
  refine ⟨fun hs => ?_, fun t ht => ?_, fun t hs ht hdue => ?_⟩
  · exact completes_of_onBoard (f := fun b => b.indexPulse d) rfl (Board.indexPulse_searching hs)
  · intro slips fixed slipNote period history average run judged
    refine ⟨fun hs => ?_, fun hs hl => ?_⟩
    · exact completes_of_onBoard (f := fun b => b.indexPulse d) rfl (Board.indexPulse_freeRun ht hs)
    · have locked {rt : Tracker} {note : Option NoticeBody} :=
        Board.indexPulse_locked (rt := rt) (note := note) ht hs hl
      refine ⟨fun hd ha => ?_, fun a hd ha hband => ?_, fun hd hrun => ?_, fun a hd hrun ha => ?_⟩
      all_goals refine completes_of_onBoard (f := fun b => b.indexPulse d) rfl ?_
      · exact locked (Tracker.judge_good hd ha)
      · exact (locked (Tracker.judge_doubts hd ha hband)).trans
          (Board.enterTaking_doubting (by rw [Board.tracked_drv]))
      · exact locked (Tracker.judge_doubting hd hrun)
      · exact (locked (Tracker.judge_clears hd hrun ha)).trans (Board.tracked_enterTaking rfl)
  · exact completes_of_onBoard (f := fun b => b.watchdog d) rfl (Board.watchdog_due hs ht hdue)

end Sys2Proof.Machine
end

section
/-! PROOFS. A positioning's third failure with the job's record naming another drive (O32). -/

namespace Sys2Proof.Machine

/-- A SURVEY recorded for drive 1, ACTIVE, with two seek failures counted and nothing found. -/
def strayJob : Job :=
  { serial := 0, id := 1, kind := .survey, drive := 1, cyl := 5, head := 0, endCyl := 5, curCyl := 5, curHead := 0,
    tracksFound := 0, accept := .b, repeats := 1, retain := false, step := 0, passes := 0, rep := 1,
    exhausted := false, recal := false, tally := none, total := 0, abandoned := 0, seekFails := 2, level := .patient,
    since := 0, filed := 0, state := .active, sectors := [], relay := [], relayStep := .prepare, stepPass := 0,
    stale := false, written := false, fatal := false }

/-- A drive whose engine seeks for that job since the reset, under the reset's speed doubt. -/
def strayDrive : Drive :=
  let x := Drive.reset 0 true
  { x with da := { x.da with owner := .enginePosition, served := some ⟨0, 1⟩, work := .seek } }

/-- Both drive 0 and drive 1 position for the job, and half a second has passed. -/
def strayState : State :=
  let s := State.reset
  { s with board := { s.board with
      now := 500000, drives := ⟨strayDrive, strayDrive, .reset 0 true, .reset 0 true⟩,
      re := { s.board.re with jobs := [strayJob] } } }

/-- Whether drive 1's positioning is to be abandoned after a step (R82). -/
def abandonsOther : Host.Outcome State Fault Refusal → Bool
  | .next s => (s.board.drv 1).da.abandon
  | _ => false

/-- The time-out finishes the job, and the finish asks drive 1, which the record names, to abandon its positioning. -/
theorem strayJob_abandonsOther : abandonsOther (exec (.engineSeekTimeout 0) strayState) = true := by decide +kernel

/-- Refutes O32: its third-failure clause leaves every drive but d as it was, with no hypothesis that the job served is
filed for d. The finish reaches the drive the record names (R82, R112): in strayState that is drive 1, which serves the
same job and is asked to abandon its positioning. -/
theorem not_movementTimers : ¬ Obligations.MovementTimers := by
  unfold Obligations.MovementTimers
  intro h
  obtain ⟨hpositioning, -⟩ := h
  obtain ⟨-, -, hserving⟩ := hpositioning 0 strayState
  obtain ⟨-, hfailed⟩ := hserving strayJob ⟨0, 1⟩ rfl rfl rfl rfl
  obtain ⟨-, hthird⟩ := hfailed (by decide) (by decide) rfl (by decide)
  have hkept := congrArg abandonsOther
    (hthird (by decide) (by decide) ⟨by decide, by decide⟩ rfl (by decide) (by decide) rfl (by decide))
  exact absurd (strayJob_abandonsOther.symm.trans hkept) (by decide +kernel)

end Sys2Proof.Machine
end

section
/-! PROOFS. The end of a capture write, of a SALVAGE and of a PREPARE image (O44). -/

namespace Sys2Proof.Machine

/-- A SALVAGE with the pending entry of a slot replaced, at the end of its set, by the capture written there (R98). -/
def Job.holds (j : Job) (k slot : Nat) (c : Capture) : Job :=
  j.modSector k fun r => { r with caps := (r.caps.filter fun p => !(p.slot = slot && !p.held)) ++ [c] }

/-- A RELAY with the PREPARE image of a sector replaced (R105). -/
def Job.images (j : Job) (k : Nat) (c : Capture) : Job := j.modRelay k fun q => { q with image := some c }

theorem Job.relayRec_modRelay {j : Job} {k : Nat} {q : RelaySector} {f : RelaySector → RelaySector}
    (hf : ∀ q, (f q).sector = q.sector) (hq : j.relayRec k = some q) : (j.modRelay k f).relayRec k = some (f q) := by
  unfold Job.relayRec Job.modRelay at *
  dsimp only
  generalize j.relay = l at hq
  induction l with
  | nil => cases hq
  | cons p ps ih =>
    by_cases hp : p.sector = k
    · rw [List.find?_cons_of_pos (by simpa using hp)] at hq
      obtain rfl := Option.some.inj hq
      rw [List.map_cons, if_pos hp, List.find?_cons_of_pos (by simpa using (hf p).trans hp)]
    · rw [List.find?_cons_of_neg (by simpa using hp)] at hq
      rw [List.map_cons, if_neg hp, List.find?_cons_of_neg (by simpa using hp), ih hq]

section
variable {b : Board} {op : StoreOp} {j : Job}

theorem Board.joinQueue_new {n k : Nat} (hf : b.su.flight = none) (hq : (n, k) ∉ b.su.queue) :
    b.joinQueue n k = { b with su := { b.su with queue := b.su.queue ++ [(n, k)] } } := by
  unfold Board.joinQueue
  simp [hf, hq]

theorem Board.settleCheck_other {n : Nat} (hj : b.job n = some j) (hs : j.state ≠ .settling) :
    b.settleCheck n = b := by
  unfold Board.settleCheck
  simp [hj, hs]

section
variable (hj : b.job j.serial = some j)
include hj

/-- A capture of an unresolved sector is held at the end of its set, and the sector queued for a solve (R99, R114). -/
theorem Board.salvageCapture_held {k : Nat} {r : SalvageSector} {c : Capture} (hs : op.spoiled = false)
    (ha : j.state ≠ .settling) (hr : j.sectorRec k = some r) (hu : r.status.unresolved = true)
    (hc : ∃ p ∈ r.caps, p.slot = op.slot ∧ p.held = false) (hf : b.su.flight = none)
    (hq : (j.serial, k) ∉ b.su.queue) :
    b.salvageCapture j k op c = { b.modJob j.serial (Job.holds · k op.slot c) with
      su := { b.su with queue := b.su.queue ++ [(j.serial, k)] } } := by
  have hany : (r.caps.any fun x => x.slot = op.slot && !x.held) = true := by
    obtain ⟨p, hp, hslot, hheld⟩ := hc
    exact List.any_eq_true.2 ⟨p, hp, by simp [hslot, hheld]⟩
  have hjob := Board.job_modJob b j.serial (f := (Job.holds · k op.slot c)) fun _ => rfl
  rw [hj] at hjob
  unfold Board.salvageCapture
  rw [hr]
  dsimp only
  rw [if_pos hany, if_neg (by rw [hs]; decide), if_pos hu]
  have hjoin := Board.joinQueue_new (b := b.modJob j.serial (Job.holds · k op.slot c)) hf hq
  exact (congrArg (Board.settleCheck · j.serial) hjoin).trans (Board.settleCheck_other hjob ha)

omit hj in
/-- A PREPARE image is held once written; the write-buffer fill that waited for it then begins (R105, R106). -/
theorem Board.prepareCapture_held {q : RelaySector} {c : Capture} (hs : op.spoiled = false)
    (hq : j.relayRec q.sector = some q) (hi : q.image = some { c with held := false }) :
    b.prepareCapture j q.sector op c =
      let b1 := b.modJob j.serial (Job.images · q.sector c)
      let da := (b.drv j.drive).da
      if da.wbuf = .waiting q.sector && da.served.any (·.serial = j.serial) then
        b1.startWriteFill j.drive j.serial q.sector
      else b1 := by
  have hany : ((some q).any fun r => r.image = some { c with held := false }) = true := decide_eq_true hi
  have hsound (x : Board) : x.treatSpoiled op = x := if_neg (by rw [hs]; decide)
  unfold Board.prepareCapture
  rw [hq, if_pos hany, hsound]
  rfl

/-- Where no usable entry has come, the fill reads the image from its slot (R106). -/
theorem Board.prepareCapture_fills {q : RelaySector} {c : Capture} (hc : c.held = true)
    (hq : j.relayRec q.sector = some q) (hn : (b.ts.entry (j.track.addr q.sector)).all (·.damaged) = true)
    (d : DriveNo) :
    (b.modJob j.serial (Job.images · q.sector c)).startWriteFill d j.serial q.sector =
      ((b.modJob j.serial (Job.images · q.sector c)).modDa d fun da =>
        { da with wbuf := .filling q.sector true }).request (.writeFill d q.sector true) c.slot
          (slotReads c.slot Config.imageCells) := by
  have hjob := Board.job_modJob b j.serial (f := (Job.images · q.sector c)) fun _ => rfl
  rw [hj] at hjob
  have himage : ((j.images q.sector c).relayRec q.sector).bind (·.image) = some c :=
    congrArg (·.bind (·.image))
      (Job.relayRec_modRelay (f := fun q => { q with image := some c }) (fun _ => rfl) hq)
  exact (Board.startWriteFill_image hjob hn himage).trans (if_pos hc)

end

variable {d : DriveNo} {i : Fin 2} (hops : b.ts.ops = [op]) (hd : ∀ x ∈ b.ts.keep, x.2 ≠ .draining)
  (hk : op.kind = .capture d i) (ht : op.todo = []) (hj : b.job ((b.drv d).rc.buf i).who.job = some j)
include hops hd hk ht hj

/-- A capture write of a live job ends: its operation is over and its buffer FREE (R65), and the engine is told. -/
theorem Board.captureDone_relay (hr : j.kind = .relay) :
    b.captureDone d i = ((b.opDone op).freeBuf d i).prepareCapture j ((b.drv d).rc.buf i).who.sector op
      (((b.drv d).rc.buf i).capture op.slot) := by
  have hdone : b.ts.doneOp (.capture d i) = some op := by
    unfold Store.doneOp
    rw [hops]
    simp [hk, ht]
  have hjob : ((b.opDone op).freeBuf d i).job ((b.drv d).rc.buf i).who.job = some j := hj
  unfold Board.captureDone
  rw [hdone]
  dsimp only
  rw [Board.dropOps_only hops hd (by simp [hk]), hjob]
  simp only [hr]

theorem Board.captureDone_salvage (hr : j.kind = .salvage) :
    b.captureDone d i = ((b.opDone op).freeBuf d i).salvageCapture j ((b.drv d).rc.buf i).who.sector op
      (((b.drv d).rc.buf i).capture op.slot) := by
  have hdone : b.ts.doneOp (.capture d i) = some op := by
    unfold Store.doneOp
    rw [hops]
    simp [hk, ht]
  have hjob : ((b.opDone op).freeBuf d i).job ((b.drv d).rc.buf i).who.job = some j := hj
  unfold Board.captureDone
  rw [hdone]
  dsimp only
  rw [Board.dropOps_only hops hd (by simp [hk]), hjob]
  simp only [hr]

end

end Sys2Proof.Machine
end

section
/-! PROOFS. A slot of a READ pass: how it opens and what becomes of the capture when it closes (O44). -/

namespace Sys2Proof.Machine

/-! ### The channel's capture buffers (R64) -/

/-- The channel with no slot open. -/
def Channel.idled (rc : Channel) : Channel :=
  { rc with activity := .idle, slotFor := none, slotBuf := none, notKept := false }

section
variable (rc : Channel) (i : Fin 2) (x y : CaptureBuffer)

@[simp] theorem Channel.setBuf_buf : (rc.setBuf i x).buf i = x := by fin_cases i <;> rfl

@[simp] theorem Channel.setBuf_setBuf : (rc.setBuf i x).setBuf i y = rc.setBuf i y := by fin_cases i <;> rfl

@[simp] theorem Channel.setBuf_slotBuf : (rc.setBuf i x).slotBuf = rc.slotBuf := by fin_cases i <;> rfl

@[simp] theorem Channel.setBuf_setup : (rc.setBuf i x).setup = rc.setup := by fin_cases i <;> rfl

theorem Channel.setBuf_idled : (rc.setBuf i x).idled = rc.idled.setBuf i x := by fin_cases i <;> rfl

/-- The buffer that received a pass's slot, handed over with its report (R63). -/
def Channel.handed (ps : PassSetup) : CaptureBuffer :=
  { rc.buf i with
    state := .handed, sound := rc.sound, outcome := (rc.header.map (·.1)).getD .address, time := rc.capTime,
    total := (rc.buf i).quals.sum, shift := rc.slotShift, offset := rc.offset, tag := ps.tag, passNo := ps.passNo }

end

/-- A buffer being written into a slot (R65). -/
def CaptureBuffer.writingTo (x : CaptureBuffer) (slot : Nat) : CaptureBuffer :=
  { x with state := .writing, who := { x.who with slot := some slot } }

/-! ### A slot set aside that gives no capture (R64, R98, R105) -/

/-- A job without the pending entry of a slot in a sector's set (R98). -/
def Job.losesPending (j : Job) (k slot : Nat) : Job :=
  j.modSector k fun r => { r with caps := r.caps.filter fun y => ¬ (y.slot = slot ∧ y.held = false) }

section
variable {b : Board} {d : DriveNo} {c : CaptureFor} {j : Job} {n : Nat}

theorem Board.dropAside_setDrv (y : Drive) : (b.setDrv d y).dropAside c = (b.dropAside c).setDrv d y := by
  have hjob : (b.setDrv d y).job c.job = b.job c.job := rfl
  unfold Board.dropAside
  rw [hjob]
  repeat' split
  all_goals rfl

theorem Board.dropAside_none (h : c.slot = none) : b.dropAside c = b := by
  unfold Board.dropAside
  rw [h]

theorem Board.dropAside_pending {r : SalvageSector} (hs : c.slot = some n) (hj : b.job c.job = some j)
    (hk : j.kind = .salvage) (hr : j.sectorRec c.sector = some r) (hp : ∃ y ∈ r.caps, y.slot = n ∧ y.held = false) :
    b.dropAside c = (b.modJob c.job (Job.losesPending · c.sector n)).freePool n := by
  have hany : ((some r).any (·.caps.any fun x => x.slot = n && !x.held)) = true := by
    obtain ⟨y, hy, hslot, hheld⟩ := hp
    exact List.any_eq_true.2 ⟨y, hy, by simp [hslot, hheld]⟩
  unfold Board.dropAside
  rw [hs, hj]
  dsimp only
  rw [hk]
  dsimp only
  rw [hr, if_pos hany]
  unfold Job.losesPending
  simp

theorem Board.dropAside_relay {q : RelaySector} (hs : c.slot = some n) (hj : b.job c.job = some j)
    (hk : j.kind = .relay) (hq : j.relayRec c.sector = some q) (ha : q.aside = some n) :
    b.dropAside c =
      (b.modJob c.job fun j => j.modRelay c.sector fun q => { q with aside := none }).freePool n := by
  have hany : ((some q).any (·.aside = some n)) = true := decide_eq_true ha
  unfold Board.dropAside
  rw [hs, hj]
  dsimp only
  rw [hk]
  dsimp only
  rw [hq, if_pos hany]

end

/-! ### The engine's answer to a capture (R99, R105) -/

section
variable {cs before after : List Capture} {c : Capture}

/-- The capture that gives way is held and unlocked (R99). -/
theorem lowestCapture_free (h : lowestCapture cs = some c) : c ∈ cs ∧ c.held = true ∧ c.lock = false := by
  induction cs with
  | nil => cases h
  | cons a cs ih =>
    unfold lowestCapture at h
    cases hl : lowestCapture cs with
    | none =>
      rw [hl] at h
      dsimp only at h
      split_ifs at h with ha
      obtain rfl := Option.some.inj h
      exact ⟨List.mem_cons_self, by simpa using ha⟩
    | some x =>
      rw [hl] at h
      dsimp only at h
      split_ifs at h with ha
      · obtain rfl := Option.some.inj h
        simp only [Bool.and_eq_true, Bool.not_eq_true', decide_eq_true_eq] at ha
        exact ⟨List.mem_cons_self, ha.1⟩
      · obtain ⟨hm, hf⟩ := ih (hl.trans h)
        exact ⟨List.mem_cons_of_mem a hm, hf⟩

/-- The oldest of the free captures of the least total gives way (R99). -/
theorem lowestCapture_least (hc : c.held = true ∧ c.lock = false)
    (hb : ∀ y ∈ before, y.held = true ∧ y.lock = false → c.total < y.total)
    (ha : ∀ y ∈ after, y.held = true ∧ y.lock = false → c.total ≤ y.total) :
    lowestCapture (before ++ c :: after) = some c := by
  induction before with
  | nil =>
    rw [List.nil_append]
    unfold lowestCapture
    cases hl : lowestCapture after with
    | none => exact if_pos (by simpa using hc)
    | some x =>
      obtain ⟨hm, hf⟩ := lowestCapture_free hl
      exact if_pos (by simpa using ⟨hc, ha x hm hf⟩)
  | cons y ys ih =>
    rw [List.cons_append]
    unfold lowestCapture
    rw [ih fun z hz => hb z (List.mem_cons_of_mem y hz)]
    refine if_neg fun h => ?_
    simp only [Bool.and_eq_true, Bool.not_eq_true', decide_eq_true_eq] at h
    have := hb y List.mem_cons_self h.1
    omega

end

/-- A SALVAGE with a pending entry for a slot, whose capture has given way, at the end of a sector's set (R99). -/
def Job.replaces (j : Job) (k slot : Nat) : Job :=
  j.modSector k fun r => { r with caps := r.caps.filter (·.slot ≠ slot) ++ [Capture.pendingAt slot] }

/-- A RELAY with a PREPARE image as the source of a sector, in the slot set aside for it (R105). -/
def Job.sourced (j : Job) (k : Nat) (c : Capture) : Job :=
  j.modRelay k fun q => { q with aside := none, image := some c }

/-- The operation of a capture's write (R65). -/
def captureOp (d : DriveNo) (i : Fin 2) (slot : Nat) (buf : CaptureBuffer) (now : Time) : StoreOp :=
  { kind := .capture d i, slot := slot, at_ := now, todo := slotWrites slot buf.words buf.quals, got := [], syn := [],
    double := false, wrote := [], spoiled := false, lastAt := now }

/-- The board with one more operation in the store. -/
def Board.withOp (b : Board) (op : StoreOp) : Board := { b with ts := { b.ts with ops := b.ts.ops ++ [op] } }

section
variable {b : Board} {d : DriveNo} {z : Drive} {i : Fin 2} {buf : CaptureBuffer} {j : Job}

theorem Board.freeBuf_setDrv :
    (b.setDrv d z).freeBuf d i = b.setDrv d { z with rc := z.rc.setBuf i .empty } := Board.modRc_setDrv _ _ _ _

variable (hbuf : z.rc.buf i = buf)
include hbuf

theorem Board.writeCapture_setDrv (slot : Nat) :
    (b.setDrv d z).writeCapture d i slot =
      (b.withOp (captureOp d i slot buf b.now)).setDrv d { z with rc := z.rc.setBuf i (buf.writingTo slot) } := by
  unfold Board.writeCapture
  rw [Board.setDrv_drv, hbuf]
  dsimp only
  rw [Board.modRc_setDrv]
  rfl

variable (hj : b.job buf.who.job = some j)
include hj

section
variable {r : SalvageSector} (hr : j.sectorRec buf.who.sector = some r)
include hr

/-- The answer for a sector RESOLVED or SUPERSEDED (R99). -/
theorem Board.handSalvage_settled (hu : r.status.unresolved = false) :
    (b.setDrv d z).handSalvage d i = (b.dropAside buf.who).setDrv d { z with rc := z.rc.setBuf i .empty } := by
  have hjob : (b.setDrv d z).job buf.who.job = some j := hj
  unfold Board.handSalvage
  simp only [Board.setDrv_drv, hbuf, hjob, hr, hu, Bool.not_false, if_true, Board.dropAside_setDrv,
    Board.freeBuf_setDrv]

section
variable (hu : r.status.unresolved = true)
include hu

/-- The answer with a slot set aside (R99). -/
theorem Board.handSalvage_aside {slot : Nat} (hs : buf.who.slot = some slot) :
    (b.setDrv d z).handSalvage d i =
      (b.withOp (captureOp d i slot buf b.now)).setDrv d { z with rc := z.rc.setBuf i (buf.writingTo slot) } := by
  have hjob : (b.setDrv d z).job buf.who.job = some j := hj
  unfold Board.handSalvage
  simp only [Board.setDrv_drv, hbuf, hjob, hr, hu, hs, Bool.not_true, Bool.false_eq_true, if_false,
    Board.writeCapture_setDrv hbuf]

variable (hs : buf.who.slot = none)
include hs

/-- With none, a capture below all that could give way to it is dropped (R99). -/
theorem Board.handSalvage_dropped (hl : ∀ c, lowestCapture r.caps = some c → buf.total < c.total) :
    (b.setDrv d z).handSalvage d i = b.setDrv d { z with rc := z.rc.setBuf i .empty } := by
  have hjob : (b.setDrv d z).job buf.who.job = some j := hj
  unfold Board.handSalvage
  simp only [Board.setDrv_drv, hbuf, hjob, hr, hu, hs, Bool.not_true, Bool.false_eq_true, if_false,
    Board.freeBuf_setDrv]
  cases hc : lowestCapture r.caps with
  | none => rfl
  | some c => exact if_neg (Nat.not_le_of_lt (hl c hc))

/-- Else it takes the slot of the one that gives way (R99). -/
theorem Board.handSalvage_replaces {c : Capture} (hl : lowestCapture r.caps = some c) (hc : c.total ≤ buf.total) :
    (b.setDrv d z).handSalvage d i =
      ((b.modJob buf.who.job (Job.replaces · buf.who.sector c.slot)).withOp
        (captureOp d i c.slot buf b.now)).setDrv d { z with rc := z.rc.setBuf i (buf.writingTo c.slot) } := by
  have hjob : (b.setDrv d z).job buf.who.job = some j := hj
  obtain ⟨-, hserial⟩ := Board.job_mem hj
  have hsector : r.sector = buf.who.sector := by simpa using List.find?_some hr
  unfold Board.handSalvage
  simp only [Board.setDrv_drv, hbuf, hjob, hr, hu, hs, hl, hc, Bool.not_true, Bool.false_eq_true, if_false, if_true]
  rw [hserial, hsector]
  exact Board.writeCapture_setDrv (b := b.modJob buf.who.job (Job.replaces · buf.who.sector c.slot)) hbuf c.slot

end

end

/-- The answer for a good image of a PREPARE pass with a slot set aside (R105). -/
theorem Board.handPrepare_good {n : Nat} (hs : buf.who.slot = some n)
    (hg : buf.sound = true ∧ buf.outcome = .matched) :
    (b.setDrv d z).handPrepare d i =
      ((b.modJob buf.who.job (Job.sourced · buf.who.sector { buf.capture n with held := false })).withOp
        (captureOp d i n buf b.now)).setDrv d { z with rc := z.rc.setBuf i (buf.writingTo n) } := by
  have hjob : (b.setDrv d z).job buf.who.job = some j := hj
  obtain ⟨-, hserial⟩ := Board.job_mem hj
  obtain ⟨hsound, hmatch⟩ := hg
  unfold Board.handPrepare
  simp only [Board.setDrv_drv, hbuf, hjob, hs, hsound, hmatch, decide_true, Bool.and_self, if_true]
  rw [hserial]
  exact Board.writeCapture_setDrv
    (b := b.modJob buf.who.job (Job.sourced · buf.who.sector { buf.capture n with held := false })) hbuf n

/-- The answer for any other (R105). -/
theorem Board.handPrepare_bad {n : Nat} (hs : buf.who.slot = some n)
    (hg : ¬ (buf.sound = true ∧ buf.outcome = .matched)) :
    (b.setDrv d z).handPrepare d i = (b.dropAside buf.who).setDrv d { z with rc := z.rc.setBuf i .empty } := by
  have hjob : (b.setDrv d z).job buf.who.job = some j := hj
  unfold Board.handPrepare
  simp only [Board.setDrv_drv, hbuf, hjob, hs]
  rw [if_neg (by simpa using hg), Board.dropAside_setDrv, Board.freeBuf_setDrv]

omit hj in
theorem Board.handPrepare_slotless (hs : buf.who.slot = none) :
    (b.setDrv d z).handPrepare d i = b.setDrv d { z with rc := z.rc.setBuf i .empty } := by
  unfold Board.handPrepare
  simp only [Board.setDrv_drv, hbuf, hs, Board.freeBuf_setDrv]
  cases (b.setDrv d z).job buf.who.job <;> rfl

end

/-! ### The report of a slot (R63) -/

section
variable {b c : Board} {d : DriveNo} {y : Drive} {i : Fin 2} {ps : PassSetup}

theorem Board.idleSlot_setDrv (x : CaptureBuffer) :
    (b.setDrv d { y with rc := y.rc.setBuf i x }).idleSlot d =
      b.setDrv d { y with rc := y.rc.idled.setBuf i x } := by
  unfold Board.idleSlot
  rw [Board.modRc_setDrv, ← Channel.setBuf_idled]
  rfl

/-- A slot without an image is reported to nobody (R63). -/
theorem Board.passReport_imageless (ht : ps.tag = .prepare ∨ ∃ n, ps.tag = .step n) : b.passReport d ps false = b := by
  obtain ht | ⟨n, ht⟩ := ht
  all_goals
    unfold Board.passReport
    simp only [ht]
    cases (b.drv d).rc.slotBuf <;> rfl

theorem Board.passReport_prepare (hi : (b.drv d).rc.slotBuf = some i) (ht : ps.tag = .prepare) :
    b.passReport d ps true = b.handPrepare d i := by
  unfold Board.passReport
  simp only [ht, hi, if_true]

theorem Board.passReport_step {n : Nat} (hi : (b.drv d).rc.slotBuf = some i) (ht : ps.tag = .step n) :
    b.passReport d ps true = b.handSalvage d i := by
  unfold Board.passReport
  simp only [ht, hi, if_true]

section
variable (hi : y.rc.slotBuf = some i)
include hi

theorem Board.loseBuffer_setDrv :
    (b.setDrv d y).loseBuffer d =
      (b.dropAside (y.rc.buf i).who).setDrv d { y with rc := y.rc.setBuf i .empty } := by
  unfold Board.loseBuffer
  simp only [Board.setDrv_drv, hi, Board.dropAside_setDrv, Board.freeBuf_setDrv]

theorem Board.fillReport_setDrv :
    (b.setDrv d y).fillReport d ps.tag ps.passNo =
      b.setDrv d { y with rc := y.rc.setBuf i (y.rc.handed i ps) } := by
  unfold Board.fillReport
  rw [Board.modRc_setDrv]
  simp only [hi]
  rfl

variable (hps : y.rc.setup = .pass ps)
include hps

/-- The report of a captured slot of a pass that gave no image (R64). -/
theorem Board.reportSlot_imageless (ha : y.rc.activity ≠ .idle)
    (hn : ¬ (y.rc.activity = .complete ∧ y.rc.found = true)) (ht : ps.tag = .prepare ∨ ∃ n, ps.tag = .step n) :
    (b.setDrv d y).reportSlot d =
      (b.dropAside (y.rc.buf i).who).setDrv d { y with rc := y.rc.idled.setBuf i .empty } := by
  unfold Board.reportSlot
  simp only [Board.setDrv_drv, hps, if_neg ha, hn, if_false, decide_false]
  rw [Board.loseBuffer_setDrv hi, Board.passReport_imageless ht, Board.idleSlot_setDrv]

/-- The report of one that did, for the buffer it leaves (R63). -/
theorem Board.reportSlot_image (himage : y.rc.activity = .complete ∧ y.rc.found = true) {x : CaptureBuffer}
    (hx : (b.setDrv d { y with rc := y.rc.setBuf i (y.rc.handed i ps) }).passReport d ps true =
      c.setDrv d { y with rc := (y.rc.setBuf i (y.rc.handed i ps)).setBuf i x }) :
    (b.setDrv d y).reportSlot d = c.setDrv d { y with rc := y.rc.idled.setBuf i x } := by
  unfold Board.reportSlot
  simp only [Board.setDrv_drv, hps, himage, and_self, if_true, decide_true]
  rw [Board.fillReport_setDrv hi, hx, Channel.setBuf_setBuf, Board.idleSlot_setDrv]
  exact if_neg (by decide)

end
end

/-! ### The pulse of a READ pass (R62, R79) -/

/-- A drive in a READ pass that goes on, with no live slot open (R79). -/
def Drive.readsOn (x : Drive) : Prop :=
  x.lp.cmd.phase ≠ .transfer ∧ x.lp.cmd.phase ≠ .awaitingSlot ∧ x.da.owner = .enginePass ∧
    x.da.passKind = some .read ∧ x.da.atBoundary = false ∧ x.da.stopAtEnd = false ∧ x.da.slots < x.profile.sectors

/-- A drive with the line that comes with a pulse (log entry 35). -/
def Drive.sampled (x : Drive) (wp : Bool) : Drive := { x with pins := { x.pins with writeProtect := wp } }

/-- The drive after such a pulse, its channel as given. -/
def Drive.slotClosed (x : Drive) (wp : Bool) (rc : Channel) : Drive := { (x.pulsed wp).slotOn with rc := rc }

section
variable {b c : Board} {d : DriveNo}

theorem Board.beginHunt_lp (k : Nat) (cap : Option CaptureFor) :
    ((b.beginHunt d k cap).drv d).lp = (b.drv d).lp := by
  unfold Board.beginHunt
  dsimp only
  split
  · simp
  · simp
  · rw [Board.modRc_eq, Board.dropAside_setDrv, Board.setDrv_drv]

theorem Board.openPass_lp (k : Nat) : ((b.openPass d k).drv d).lp = (b.drv d).lp := by
  unfold Board.openPass
  repeat' split
  · rw [Board.beginHunt_lp]
    simp
  · rfl
  · rfl

theorem Board.openPassSlot_read {y : Drive} {k : Nat} (hk : y.da.passKind = some .read) :
    (b.setDrv d y).openPassSlot d k = (b.setDrv d y.slotOn).openPass d k := by
  unfold Board.openPassSlot
  rw [Board.modDa_setDrv]
  dsimp only
  rw [Board.setDrv_drv]
  dsimp only
  split
  · next h => rw [hk] at h; cases h
  · rfl
  · next h => rw [hk] at h; cases h

/-- The slot open closes, and the next slot opens for the pass's set-up. -/
theorem Board.sectorPulse_reads {wp : Bool} {rc : Channel} (hon : (b.drv d).readsOn)
    (hr : (b.setDrv d ((b.drv d).sampled wp)).reportSlot d = c.setDrv d { (b.drv d).sampled wp with rc := rc }) :
    b.sectorPulse d wp = (c.setDrv d ((b.drv d).slotClosed wp rc)).openPass d (b.drv d).opening := by
  obtain ⟨hp, hp', ho, hk, hb, hs, hn⟩ := hon
  have hends : (b.drv d).passEnds = false := by simp [Drive.passEnds, hb, hs, hn]
  unfold Board.sectorPulse
  extract_lets x b1
  have h1 : b1 = c.setDrv d { x.sampled wp with rc := rc } := hr
  have h2 : b1.closeSlot d = (b1, false) := by
    unfold Board.closeSlot
    rw [h1, Board.setDrv_drv]
    exact if_pos hp
  rw [h2]
  dsimp only
  have h3 : (b1.modDa d fun da => { da with writing := none, writeImage := [] }).modRt d (fun rt =>
      rt.advance x.profile.sectors) = c.setDrv d { x.pulsed wp with rc := rc } := by
    rw [h1, Board.modDa_setDrv, Board.modRt_eq, Board.setDrv_drv, Board.setDrv_setDrv]
    rfl
  have h4 : (c.setDrv d { x.pulsed wp with rc := rc }).openPassSlot d x.opening =
      (c.setDrv d (x.slotClosed wp rc)).openPass d x.opening := Board.openPassSlot_read hk
  have ho : x.da.owner = .enginePass := ho
  rw [h3, Board.setDrv_drv, hends, ho]
  refine (Board.openSlot_none ?_).trans h4
  refine ne_of_eq_of_ne (congrArg (fun z : Board => (z.drv d).lp.cmd.phase) h4) ?_
  rw [Board.openPass_lp, Board.setDrv_drv]
  exact hp'

/-! ### A slot opens for a set-up (R58, R62, R64) -/

/-- A set-up with a slot acted on. -/
def PassSetup.act (ps : PassSetup) (k : Nat) : PassSetup :=
  { ps with plans := ps.plans.map fun q => if q.sector = k then { q with acted := true } else q }

/-- A channel that begins the hunt of slot k, to be captured, or not where both buffers are busy. -/
def Channel.huntsFor (rc : Channel) (k : Nat) (who : Option CaptureFor) (i : Option (Fin 2)) : Channel :=
  { rc with
    slotShift := rc.shift, activity := .hunting, slotNo := k, slotFor := who, slotBuf := i, notKept := i.isNone,
    run := 0, cells := 0, wordIndex := 0, check := 0, header := none, found := false, sound := false }

/-- A buffer that receives a slot (R64). -/
def CaptureBuffer.receiver (who : CaptureFor) : CaptureBuffer :=
  { CaptureBuffer.empty with state := .receiving, who := who }

section
variable {y : Drive} {k : Nat} {who : CaptureFor}

theorem Board.beginHunt_captures {i : Fin 2} (hf : y.rc.freeBuf = some i) :
    (b.setDrv d y).beginHunt d k (some who) =
      b.setDrv d { y with rc := (y.rc.huntsFor k (some who) (some i)).setBuf i (.receiver who) } := by
  unfold Board.beginHunt
  simp only [Board.setDrv_drv, hf]
  exact Board.modRc_setDrv _ _ _ _

theorem Board.beginHunt_loses (hf : y.rc.freeBuf = none) :
    (b.setDrv d y).beginHunt d k (some who) =
      (b.dropAside who).setDrv d { y with rc := y.rc.huntsFor k none none } := by
  unfold Board.beginHunt
  simp only [Board.setDrv_drv, hf]
  rw [Board.modRc_setDrv]
  exact Board.dropAside_setDrv _

end

section
variable {y : Drive} {ps : PassSetup} {k : Nat} (hps : y.rc.setup = .pass ps)
include hps

theorem Board.openPass_unlisted (hn : (ps.plans.find? fun p => p.sector = k && !p.acted) = none) :
    (b.setDrv d y).openPass d k = b.setDrv d y := by
  unfold Board.openPass
  rw [Board.setDrv_drv, hps]
  simp only [hn]

omit hps in
/-- A pulse at which no listed slot opens. -/
theorem Board.sectorPulse_closes {wp : Bool} {rc : Channel} (hon : (b.drv d).readsOn)
    (hr : (b.setDrv d ((b.drv d).sampled wp)).reportSlot d = c.setDrv d { (b.drv d).sampled wp with rc := rc })
    (hrc : rc.setup = .pass ps) (hn : (ps.plans.find? fun p => p.sector = (b.drv d).opening && !p.acted) = none) :
    b.sectorPulse d wp = c.setDrv d ((b.drv d).slotClosed wp rc) :=
  (Board.sectorPulse_reads hon hr).trans (Board.openPass_unlisted hrc hn)

variable {p : SlotPlan} {who : CaptureFor} (hp : (ps.plans.find? fun p => p.sector = k && !p.acted) = some p)
  (hw : p.capture = some who)
include hp hw

theorem Board.openPass_captures {i : Fin 2} (hf : y.rc.freeBuf = some i) :
    (b.setDrv d y).openPass d k =
      b.setDrv d { y with
        rc := (({ y.rc with setup := .pass (ps.act k) } : Channel).huntsFor k (some who) (some i)).setBuf i
          (.receiver who) } := by
  unfold Board.openPass
  rw [Board.setDrv_drv, hps]
  simp only [hp, hw]
  rw [Board.modRc_setDrv]
  exact Board.beginHunt_captures hf

theorem Board.openPass_loses (hf : y.rc.freeBuf = none) :
    (b.setDrv d y).openPass d k =
      (b.dropAside who).setDrv d { y with
        rc := ({ y.rc with setup := .pass (ps.act k) } : Channel).huntsFor k none none } := by
  unfold Board.openPass
  rw [Board.setDrv_drv, hps]
  simp only [hp, hw]
  rw [Board.modRc_setDrv]
  exact Board.beginHunt_loses hf

end
end

end Sys2Proof.Machine
end

section
/-! PROOFS. The end of a SALVAGE's pass: its ladder position, what becomes of the job, and its finish PARTIAL with
nothing recovered (O44). -/

namespace Sys2Proof.Machine

/-! ### The ladder position (R95) -/

/-- A SALVAGE's position brought forward by a full pass, or in line with the ladder by another (R95). -/
def Job.moved (j : Job) (ladder : List LadderStep) (full : Bool) : Job :=
  if full then j.advance ladder else j.normalise ladder

theorem Job.moved_same (j : Job) (ladder : List LadderStep) (full : Bool) :
    j.sameName (j.moved ladder full) ∧ (j.moved ladder full).sectors = j.sectors ∧
      (j.moved ladder full).relay = j.relay := by
  cases full with
  | false => exact j.normalise_same ladder
  | true => exact j.advance_same ladder

/-- A SALVAGE with its passes at the ladder's step counted, a full pass among them (R95). -/
def Job.passed (j : Job) (full : Bool) : Job := { j with passes := if full then j.passes + 1 else j.passes }

theorem Job.moved_exhausted {j : Job} (h : j.exhausted = true) (ladder : List LadderStep) (full : Bool) :
    j.moved ladder full = j := by
  cases full with
  | false => exact if_pos h
  | true => exact if_pos h

section
variable {j : Job} {ladder : List LadderStep} (full : Bool) (he : ¬ j.exhausted = true)
include he

theorem Job.moved_normalise : j.moved ladder full = (j.passed full).normalise ladder := by
  cases full with
  | false => rfl
  | true => exact if_neg he

theorem Job.moved_outside (h : ladder[j.step]? = none) : j.moved ladder full = (j.passed full).endRepeat := by
  have hstep : ladder[(j.passed full).step]? = none := h
  rw [Job.moved_normalise full he]
  unfold Job.normalise
  rw [if_neg (show ¬ (j.passed full).exhausted = true from he), hstep]

theorem Job.moved_inside {st : LadderStep} (h : ladder[j.step]? = some st) :
    j.moved ladder full =
      if (j.passed full).passes < st.passes then j.passed full
      else if j.step + 1 < ladder.length then { j with step := j.step + 1, passes := 0 }
      else (j.passed full).endRepeat := by
  have hstep : ladder[(j.passed full).step]? = some st := h
  rw [Job.moved_normalise full he]
  unfold Job.normalise
  rw [if_neg (show ¬ (j.passed full).exhausted = true from he), hstep]
  dsimp only
  by_cases hp : (j.passed full).passes < st.passes
  · rw [if_pos hp, if_neg (not_le.2 hp)]
  · rw [if_neg hp, if_pos (not_lt.1 hp)]
    by_cases hl : j.step + 1 < ladder.length
    · rw [if_pos hl]
      exact if_neg (not_le.2 hl)
    · rw [if_neg hl]
      exact if_pos (not_lt.1 hl)

end

theorem Job.needsPass_iff {j : Job} (hk : j.kind = .salvage) :
    j.needsPass = true ↔ j.exhausted = false ∧ ∃ q ∈ j.sectors, q.status.unresolved = true := by
  unfold Job.needsPass Job.hasUnresolved
  rw [hk]
  simp

theorem Board.setDrv_forall {b : Board} {d : DriveNo} {y : Drive} {P : Drive → Prop} (h : ∀ e, P (b.drv e))
    (hy : P y) (e : DriveNo) : P ((b.setDrv d y).drv e) := by
  by_cases he : e = d
  · rw [he, Board.setDrv_drv]
    exact hy
  · rw [show (b.setDrv d y).drv e = b.drv e from Quad.get_set_other _ _ he]
    exact h e

section
variable {b : Board} {n : Nat} {c j : Job}

/-! ### What becomes of the job (R93) -/

theorem Board.enginePassEnd_salvage (hj : b.job n = some j) (hn : j.serial = n) (hk : j.kind = .salvage)
    (full found : Bool) :
    b.enginePassEnd n full found = (b.putJob n ((j.counted full).moved b.re.ladder full)).salvageRest n := by
  unfold Board.enginePassEnd
  rw [hj]
  dsimp only
  split
  · exact congrArg (Board.salvageRest · n)
      (Board.putJob_modJob (c := j.counted full) hn fun i => i.moved b.re.ladder full)
  · next h => cases hk.symm.trans h
  · next h => cases hk.symm.trans h

section
variable (hc : c.serial = n) (hj : b.job n = some j)
include hc hj

theorem Board.salvageRest_waits (hp : c.needsPass = true) :
    (b.putJob n c).salvageRest n = b.putJob n (c.waits b.now) := by
  unfold Board.salvageRest
  rw [Board.putJob_job hc hj]
  exact (if_pos hp).trans (Board.putJob_rewait hc)

theorem Board.salvageRest_settles (hp : c.needsPass = false) (ho : b.outstanding n = true) :
    (b.putJob n c).salvageRest n = b.putJob n { c with state := .settling } := by
  unfold Board.salvageRest Board.restOrFinish
  rw [Board.putJob_job hc hj]
  exact (if_neg (by rw [hp]; decide)).trans ((if_pos ho).trans (Board.putJob_modJob hc _))

theorem Board.salvageRest_finishes (hp : c.needsPass = false) (ho : b.outstanding n = false) :
    (b.putJob n c).salvageRest n = (b.putJob n c).finish n .partialDone := by
  unfold Board.salvageRest Board.restOrFinish
  rw [Board.putJob_job hc hj]
  exact (if_neg (by rw [hp]; decide)).trans (if_neg (fun h => Bool.false_ne_true (ho.symm.trans h)))

end

theorem Board.outstanding_solve (h : ¬ b.noSolve n) : b.outstanding n = true := by
  by_contra ho
  refine h ⟨fun q hq he => ho ?_, fun f hf he => ho ?_⟩
  · have : b.su.queue.any (·.1 = n) = true := List.any_eq_true.2 ⟨q, hq, decide_eq_true he⟩
    simp [Board.outstanding, this]
  · simp [Board.outstanding, hf, he]

theorem Board.outstanding_none (h : b.noSolve n)
    (hw : ∀ e, (b.drv e).rc.buf0.state ≠ .writing ∧ (b.drv e).rc.buf1.state ≠ .writing) :
    b.outstanding n = false := by
  obtain ⟨hqueue, hflight⟩ := h
  have hq : b.su.queue.any (·.1 = n) = false := List.any_eq_false.2 fun q hq => by simpa using hqueue q hq
  have hf : b.su.flight.any (·.job = n) = false := by
    cases h : b.su.flight with
    | none => rfl
    | some f => simpa using hflight f h
  have h0 := hw 0
  have h1 := hw 1
  have h2 := hw 2
  have h3 := hw 3
  unfold Board.drv Quad.get at h0 h1 h2 h3
  simp [Board.outstanding, hq, hf, h0, h1, h2, h3]

/-! ### The steps of a finish (R112) -/

theorem Board.unqueueJob_none (h : b.noSolve n) : b.unqueueJob n = b := by
  obtain ⟨hqueue, -⟩ := h
  unfold Board.unqueueJob
  rw [List.filter_eq_self.2 fun q hm => decide_eq_true (hqueue q hm)]

theorem Board.discardSolve_none (h : b.noSolve n) : b.discardSolve n = b := by
  obtain ⟨-, hflight⟩ := h
  unfold Board.discardSolve
  split
  · next f hf => exact if_neg (hflight f hf)
  · rfl

theorem Board.enterBests_none (h : ∀ q ∈ c.sectors, q.best = none) : b.enterBests c = b :=
  foldl_unchanged fun q hq x => by rw [h q hq]

theorem Board.freeCaptures_none (h : ∀ q ∈ c.sectors, q.caps = []) (hr : c.relay = []) : b.freeCaptures c = b := by
  have hown : (c.sectors.flatMap fun r => r.caps.map (·.slot)) = [] :=
    List.flatMap_eq_nil_iff.2 fun q hm => by rw [h q hm]; rfl
  unfold Board.freeCaptures
  simp [hown, hr]

theorem Board.askEnd_pass {d : DriveNo} {r : JobRef} (ho : (b.drv d).da.owner = .enginePass)
    (hserved : (b.drv d).da.served = some r) (hr : r.serial = n) :
    b.askEnd d n = b.modDa d fun da => { da with atBoundary := true } := by
  unfold Board.askEnd
  simp [hserved, hr, ho]

theorem Board.letGo_free (hops : b.ts.ops = []) (hdiv : ∀ e, (b.drv e).lp.diversion = none) (slot : Nat) :
    b.letGo slot = b.eraseKeep slot := by
  have hd : b.divertHolds slot = false := by
    have h0 := hdiv 0
    have h1 := hdiv 1
    have h2 := hdiv 2
    have h3 := hdiv 3
    unfold Board.drv Quad.get at h0 h1 h2 h3
    simp [Board.divertHolds, h0, h1, h2, h3]
  unfold Board.letGo Store.slotHeld
  rw [hd, hops]
  rfl

/-- The board with the reserved slots of some sectors FREE (R112). -/
def Board.unreserved (b : Board) (rs : List SalvageSector) : Board :=
  { b with
    exam := b.exam || rs.any (·.slot.isSome),
    ts := { b.ts with keep := b.ts.keep.filter fun p => ∀ q ∈ rs, q.slot ≠ some p.1 } }

theorem Board.freeReservations_free (hops : b.ts.ops = []) (hdiv : ∀ e, (b.drv e).lp.diversion = none) :
    b.freeReservations c = b.unreserved c.sectors := by
  unfold Board.freeReservations
  generalize c.sectors = rs
  induction rs generalizing b with
  | nil => simp [Board.unreserved]
  | cons q rs ih =>
    rw [List.foldl_cons]
    cases hq : q.slot with
    | none => simp [Board.unreserved, ih hops hdiv, hq]
    | some slot =>
      dsimp only
      rw [Board.letGo_free hops hdiv, ih (b := b.eraseKeep slot) hops hdiv]
      have hkeep : (b.ts.keep.filter (·.1 ≠ slot)).filter (fun p => ∀ r ∈ rs, r.slot ≠ some p.1) =
          b.ts.keep.filter fun p => ∀ r ∈ q :: rs, r.slot ≠ some p.1 := by
        rw [List.filter_filter]
        refine List.filter_congr fun p _ => ?_
        rw [Bool.eq_iff_iff]
        simp [hq, and_comm, @eq_comm _ slot]
      unfold Board.unreserved Board.eraseKeep
      simp only [hkeep]
      simp [hq]

/-- A SALVAGE with nothing recovered or captured and no solve finishes PARTIAL in its pass (R112). -/
theorem Board.finishCore_salvage {d : DriveNo} {r : JobRef} (hj : b.job n = some c) (hk : c.kind = .salvage)
    (hd : c.drive = d) (hq : ∀ q ∈ c.sectors, q.best = none ∧ q.caps = []) (hr : c.relay = [])
    (hsolve : b.noSolve n) (hops : b.ts.ops = []) (hdiv : ∀ e, (b.drv e).lp.diversion = none)
    (ho : (b.drv d).da.owner = .enginePass) (hserved : (b.drv d).da.served = some r) (hrn : r.serial = n) :
    b.finishCore n .partialDone = Board.modDa { b with
      exam := true,
      out := b.out ++ [⟨some c.drive, b.now, .jobDone c .partialDone⟩],
      ts := { b.ts with keep := b.ts.keep.filter fun p => ∀ q ∈ c.sectors, q.slot ≠ some p.1 },
      re := { b.re with jobs := b.re.jobs.filter (·.serial ≠ n) } } d
      fun da => { da with atBoundary := true } := by
  subst hd
  let asked := (b.note (some c.drive) (.jobDone c .partialDone)).modDa c.drive fun da => { da with atBoundary := true }
  have hask : (b.note (some c.drive) (.jobDone c .partialDone)).askEnd c.drive n = asked :=
    Board.askEnd_pass ho hserved hrn
  have hlp (e : DriveNo) : (asked.drv e).lp.diversion = none :=
    Board.setDrv_forall (y := { b.drv c.drive with da := { (b.drv c.drive).da with atBoundary := true } })
      (P := fun y => y.lp.diversion = none) hdiv (hdiv c.drive) e
  unfold Board.finishCore
  simp only [hj, hk]
  rw [Board.enterBests_none fun q hm => (hq q hm).1, hask, Board.unqueueJob_none (b := asked) hsolve,
    Board.discardSolve_none (b := asked) hsolve, show asked.job n = some c from hj, Option.getD_some,
    Board.freeCaptures_none (fun q hm => (hq q hm).2) hr, Board.freeReservations_free (b := asked) hops hlp,
    if_neg (fun h => by cases h.1)]
  rfl

end

/-! ### The pulse that ends the pass (R79, R80) -/

/-- A pulse that ends a SALVAGE's pass: the pass counted and the ladder position moved (R79, R95). -/
theorem Board.sectorPulse_salvageEnds {b : Board} {d : DriveNo} {r : JobRef} {j : Job} (wp : Bool)
    (h : (b.drv d).passOver) (he : b.exam = false) (hw : b.noWriteFill d) (hm : (b.drv d).da.surveyMask = 0)
    (hserved : (b.drv d).da.served = some r) (hj : b.job r.serial = some j) (hr : j.serial = r.serial)
    (hk : j.kind = .salvage) :
    b.sectorPulse d wp =
      (((b.setDrv d ((b.drv d).passPulsed wp).passLeft).putJob r.serial
        ((j.counted (b.drv d).passFull).moved b.re.ladder (b.drv d).passFull)).salvageRest r.serial).decide d := by
  obtain ⟨hcloses, -⟩ := h
  rw [Board.sectorPulse_ends wp hcloses he hw hm hserved, Board.enginePassEnd_salvage (b := b.setDrv d _) hj hr hk]
  rfl

/-- A SALVAGE that finishes PARTIAL as its last pass ends, and the hand-back (R80, R93, R112). -/
theorem Board.finishSalvage_passOver {b : Board} {d : DriveNo} {x : Drive} {j c : Job} {r : JobRef} (h : x.passOver)
    (wp : Bool) (hserved : x.da.served = some r) (hc : c.serial = r.serial) (hj : b.job r.serial = some j)
    (hk : c.kind = .salvage) (hd : c.drive = d) (hq : ∀ q ∈ c.sectors, q.best = none ∧ q.caps = [])
    (hr : c.relay = []) (hsolve : b.noSolve r.serial) (hops : b.ts.ops = [])
    (hx : x.lp.diversion = none) (hdiv : ∀ e, (b.drv e).lp.diversion = none) (hauto : b.noAuto) :
    (((b.setDrv d (x.passPulsed wp).passLeft).putJob r.serial c).finish r.serial .partialDone).decide d =
      Board.setDrv { b with
        exam := false,
        out := b.out ++ [⟨some c.drive, b.now, .jobDone c .partialDone⟩],
        ts := { b.ts with keep := b.ts.keep.filter fun p => ∀ q ∈ c.sectors, q.slot ≠ some p.1 },
        re := { b.re with jobs := b.re.jobs.filter (·.serial ≠ r.serial) } } d
        ((x.passPulsed wp).handedBack b.now) := by
  obtain ⟨⟨-, -, -, howner, -⟩, -⟩ := id h
  let left := (x.passPulsed wp).passLeft
  let put := (b.setDrv d left).putJob r.serial c
  have hleft : put.drv d = left := Board.setDrv_drv _ _ _
  have hlp (e : DriveNo) : (put.drv e).lp.diversion = none :=
    Board.setDrv_forall (y := left) (P := fun y => y.lp.diversion = none) hdiv hx e
  let done (jobs : List Job) : Board := { b with
    exam := false,
    out := b.out ++ [⟨some c.drive, b.now, .jobDone c .partialDone⟩],
    ts := { b.ts with keep := b.ts.keep.filter fun p => ∀ q ∈ c.sectors, q.slot ≠ some p.1 },
    re := { b.re with jobs := jobs } }
  unfold Board.finish
  rw [Board.finishCore_salvage (b := put) (d := d) (r := r) (Board.putJob_job hc hj) hk hd hq hr hsolve hops hlp
    (by rw [hleft]; exact howner) (by rw [hleft]; exact hserved) rfl, Board.examine_noAuto (by exact hauto)]
  have hasked := Board.modDa_setDrv (done (put.re.jobs.filter (·.serial ≠ r.serial))) d left
    fun da => { da with atBoundary := true }
  refine (congrArg (Board.decide · d) hasked).trans ((Board.decide_passOver h wp true).trans ?_)
  exact congrArg (fun l => (done l).setDrv d ((x.passPulsed wp).handedBack b.now)) (filter_replaced _ hc)

end Sys2Proof.Machine
end

section
/-! PROOFS. The captures of a SALVAGE's and of a PREPARE pass, and the end of a SALVAGE's pass, settled (O44). -/

namespace Sys2Proof.Machine

/-- When a captured image is good (R105). -/
theorem Channel.handed_good (rc : Channel) (i : Fin 2) (ps : PassSetup) :
    ((rc.handed i ps).sound = true ∧ (rc.handed i ps).outcome = .matched) ↔
      rc.sound = true ∧ ∃ h, rc.header = some (.matched, h) := by
  refine and_congr_right fun _ => ?_
  unfold Channel.handed
  cases rc.header with
  | none => simp
  | some p => simp [Prod.ext_iff]

/-- Settles O44: a capture write ends by `captureDone`, a listed slot opens by `openPass` and closes by `reportSlot`,
each as its equation above says; a SALVAGE's pass that ends leaves the job by `salvageRest` at its moved ladder position
and the drive by the hand-back. -/
theorem captureWritten : Obligations.CaptureWritten := by
  unfold Obligations.CaptureWritten
  refine ⟨?_, ?_, ?_, ?_⟩
  · intro d i op j r s x buf c hops hk ht hs hd hwho hsec hj hkind hstate hr hu hc hf hq
    refine completes_of_onBoard (f := fun b => b.captureDone d i) rfl ?_
    rw [Board.captureDone_salvage hops hd hk ht (hwho ▸ hj) hkind, hsec]
    exact Board.salvageCapture_held (b := (s.board.opDone op).freeBuf d i) hj hs (by rw [hstate]; decide) hr hu hc hf hq
  · intro d i op j q s x buf c ended hops hk ht hs hd hwho hsec hj hkind hdrive hq hi
    let freed := (s.board.opDone op).setDrv d { x with rc := x.rc.setBuf i .empty }
    have hdone : s.board.captureDone d i = freed.prepareCapture j q.sector op c := by
      rw [Board.captureDone_relay hops hd hk ht (hwho ▸ hj) hkind, hsec]
      rfl
    rw [Board.prepareCapture_held hs hq hi, hdrive, Board.setDrv_drv] at hdone
    refine ⟨fun hw => ?_, fun r hw hr hrj hn => ?_⟩
    all_goals refine completes_of_onBoard (f := fun b => b.captureDone d i) rfl (hdone.trans ?_)
    · exact if_neg (by simp [x, hw])
    · refine (if_pos (by simp [x, hw, hr, hrj])).trans ?_
      refine (Board.prepareCapture_fills (b := freed) (c := c) hj rfl hq hn d).trans ?_
      exact congrArg (fun b : Board => b.request (.writeFill d q.sector true) op.slot _)
        (Board.modDa_setDrv ((s.board.opDone op).modJob j.serial (Job.images · q.sector c)) d _ _)
  · intro d wp ps s x now rt pulse sets dropped pends listed hp hp' ho hk hb hs hn hps
    have hon : x.readsOn := ⟨hp, hp', ho, hk, hb, hs, hn⟩
    have hdropped (c : CaptureFor) (r : SalvageSector) (h : pends c r) (rc : Channel) :
        (s.board.dropAside c).setDrv d (x.slotClosed wp rc) = dropped c (pulse rc) := by
      obtain ⟨⟨j, hj, hkind, hr⟩, hpending⟩ := h
      dsimp only [dropped]
      cases hslot : c.slot with
      | none => rw [Board.dropAside_none hslot]; rfl
      | some n => rw [Board.dropAside_pending hslot hj hkind hr (hpending n hslot)]; rfl
    refine ⟨fun p c r hi hl hc hpend => ?_, fun i hl ha hbuf => ?_⟩
    · intro hunt receiving
      have hpulse : s.board.sectorPulse d wp = (s.board.setDrv d (x.slotClosed wp x.rc)).openPass d x.opening :=
        Board.sectorPulse_reads hon (by unfold Board.reportSlot; rw [Board.setDrv_drv]; exact if_pos hi)
      refine ⟨fun h0 => ?_, fun h0 h1 => ?_, fun h0 h1 => ?_⟩
      all_goals refine completes_pulse (hpulse.trans ?_)
      · exact Board.openPass_captures (y := x.slotClosed wp x.rc) hps hl hc (i := 0) (if_pos h0)
      · exact Board.openPass_captures (y := x.slotClosed wp x.rc) hps hl hc (i := 1)
          ((if_neg h0).trans (if_pos h1))
      · exact (Board.openPass_loses (y := x.slotClosed wp x.rc) hps hl hc ((if_neg h0).trans (if_neg h1))).trans
          (hdropped c r hpend _)
    · intro buf image total closed written
      let y := x.sampled wp
      have closes {c : Board} {z : CaptureBuffer}
          (hr : (s.board.setDrv d y).reportSlot d = c.setDrv d { y with rc := y.rc.idled.setBuf i z }) :
          s.board.sectorPulse d wp = c.setDrv d (x.slotClosed wp (x.rc.idled.setBuf i z)) :=
        Board.sectorPulse_closes hon hr ((Channel.setBuf_setup _ _ _).trans hps) hl
      have lost (hn : ¬ image) (ht : ps.tag = .prepare ∨ ∃ n, ps.tag = .step n) :
          s.board.sectorPulse d wp =
            (s.board.dropAside buf.who).setDrv d (x.slotClosed wp (x.rc.idled.setBuf i .empty)) :=
        closes (Board.reportSlot_imageless (y := y) hbuf hps ha hn ht)
      let handed : Drive := { y with rc := x.rc.setBuf i (x.rc.handed i ps) }
      have hhanded : handed.rc.buf i = x.rc.handed i ps := Channel.setBuf_buf _ _ _
      have hreceived : ((s.board.setDrv d handed).drv d).rc.slotBuf = some i := by
        rw [Board.setDrv_drv]
        exact (Channel.setBuf_slotBuf _ _ _).trans hbuf
      have answered {c : Board} {z : CaptureBuffer} (hi : image)
          (h : (s.board.setDrv d handed).passReport d ps true =
            c.setDrv d { handed with rc := handed.rc.setBuf i z }) :
          s.board.sectorPulse d wp = c.setDrv d (x.slotClosed wp (x.rc.idled.setBuf i z)) :=
        closes (Board.reportSlot_image (y := y) hbuf hps hi h)
      have hwritten (o : HeaderOutcome) (h : Header) (hh : x.rc.header = some (o, h)) (n : Nat) :
          (s.board.withOp (captureOp d i n (x.rc.handed i ps) now)).setDrv d
            (x.slotClosed wp (x.rc.idled.setBuf i ((x.rc.handed i ps).writingTo n))) = written o n := by
        have hout : x.rc.handed i ps = { x.rc.handed i ps with outcome := o } := by
          unfold Channel.handed
          rw [hh]
          rfl
        rw [hout]
        rfl
      refine ⟨fun r n ht hpend => ?_, fun ht hslot => ?_, fun j q n ht hj hkind hq hslot haside => ?_⟩
      · have step {c : Board} {z : CaptureBuffer} (hi : image)
            (h : (s.board.setDrv d handed).handSalvage d i = c.setDrv d { handed with rc := handed.rc.setBuf i z }) :
            s.board.sectorPulse d wp = c.setDrv d (x.slotClosed wp (x.rc.idled.setBuf i z)) :=
          answered hi ((Board.passReport_step hreceived ht).trans h)
        have hfreed := hdropped buf.who r hpend (x.rc.idled.setBuf i .empty)
        obtain ⟨⟨j, hj, hkind, hr⟩, -⟩ := id hpend
        refine ⟨fun h => completes_pulse (Eq.trans ?_ hfreed), fun o h himage hh hu => ?_⟩
        · by_cases hi : image
          · exact step hi (Board.handSalvage_settled (buf := x.rc.handed i ps) hhanded hj hr
              (h.resolve_left (not_not_intro hi)))
          · exact lost hi (.inr ⟨n, ht⟩)
        · intro free
          refine ⟨fun slot hslot => completes_pulse ?_, fun hslot => ⟨fun hall => completes_pulse ?_, ?_⟩⟩
          · exact (step himage (Board.handSalvage_aside hhanded hj hr hu hslot)).trans (hwritten o h hh slot)
          · refine step himage (Board.handSalvage_dropped hhanded hj hr hu hslot fun c hc => ?_)
            obtain ⟨hm, hf⟩ := lowestCapture_free hc
            exact hall c hm hf
          · intro before c after hcaps hc hle hbefore hafter
            refine completes_pulse ((step himage (Board.handSalvage_replaces hhanded hj hr hu hslot
              (hcaps ▸ lowestCapture_least hc hbefore hafter) hle)).trans ?_)
            exact congrArg (Board.modJob · buf.who.job (Job.replaces · buf.who.sector c.slot)) (hwritten o h hh c.slot)
      · refine completes_pulse ?_
        by_cases hi : image
        · exact answered hi ((Board.passReport_prepare hreceived ht).trans (Board.handPrepare_slotless hhanded hslot))
        · exact (lost hi (.inl ht)).trans (by rw [Board.dropAside_none hslot]; rfl)
      · intro relays c
        have prepare {c : Board} {z : CaptureBuffer} (hi : image)
            (h : (s.board.setDrv d handed).handPrepare d i = c.setDrv d { handed with rc := handed.rc.setBuf i z }) :
            s.board.sectorPulse d wp = c.setDrv d (x.slotClosed wp (x.rc.idled.setBuf i z)) :=
          answered hi ((Board.passReport_prepare hreceived ht).trans h)
        refine ⟨fun hbad => completes_pulse ?_, fun h himage hsound hh => completes_pulse ?_⟩
        · have hfreed : s.board.sectorPulse d wp =
              (s.board.dropAside buf.who).setDrv d (x.slotClosed wp (x.rc.idled.setBuf i .empty)) := by
            by_cases hi : image
            · refine prepare hi (Board.handPrepare_bad (buf := x.rc.handed i ps) hhanded hj hslot fun hg => hbad ?_)
              exact ⟨hi, (Channel.handed_good _ _ _).1 hg⟩
            · exact lost hi (.inl ht)
          rw [hfreed, Board.dropAside_relay hslot hj hkind hq haside]
          rfl
        · refine (prepare himage (Board.handPrepare_good hhanded hj hslot
            ((Channel.handed_good _ _ _).2 ⟨hsound, h, hh⟩))).trans ?_
          have himg : { (x.rc.handed i ps).capture n with held := false } = c := by
            simp only [c, ← ht]
            rfl
          rw [himg]
          exact congrArg (Board.modJob · buf.who.job (Job.sourced · buf.who.sector c)) (hwritten .matched h hh n)
  · intro d wp r j s x now ladder full hq hover hw hm hserved hj hk hd made counted endOfRepeat moved ended stays wants
    obtain ⟨-, -, hexam, -⟩ := hq
    have hjr : j.serial = r.serial := (Board.job_mem hj).2
    let left := (x.passPulsed wp).passLeft
    have hpass : x.passFull = Decidable.decide full := by
      unfold Drive.passFull
      simp [full]
    have hmoved : (j.counted x.passFull).moved ladder x.passFull = moved := by
      have hpassed : (j.counted x.passFull).passed x.passFull = { counted with passes := made } := by
        simp only [hpass, Job.passed, Job.counted, satInc, decide_eq_true_eq]
        rfl
      have hrepeat : ((j.counted x.passFull).passed x.passFull).endRepeat = endOfRepeat := by
        rw [hpassed]
        rfl
      have hcounted : j.counted x.passFull = counted := by
        simp only [hpass, Job.counted, satInc, decide_eq_true_eq]
        rfl
      by_cases he : (j.counted x.passFull).exhausted = true
      · rw [Job.moved_exhausted he, hcounted]
        exact (if_pos he).symm
      · refine Eq.trans ?_ (if_neg he).symm
        cases hstep : ladder[j.step]? with
        | none => exact (Job.moved_outside x.passFull he hstep).trans hrepeat
        | some st => rw [Job.moved_inside x.passFull he hstep, hrepeat, hpassed, hcounted]
    obtain ⟨⟨-, hserial, hkind, hdrive, -⟩, hsectors, hrelay⟩ := Job.moved_same (j.counted x.passFull) ladder x.passFull
    rw [hmoved] at hserial hkind hdrive hsectors hrelay
    have hmserial : moved.serial = r.serial := hserial.trans hjr
    have hends : s.board.sectorPulse d wp =
        (((s.board.setDrv d left).putJob r.serial moved).salvageRest r.serial).decide d := by
      rw [← hmoved]
      exact Board.sectorPulse_salvageEnds wp hover hexam hw hm hserved hj hjr hk
    have hneeds : moved.needsPass = true ↔ wants := by
      rw [Job.needsPass_iff (hkind.trans hk), hsectors]
      rfl
    have hstays (i : Job) (h : ((s.board.setDrv d left).putJob r.serial moved).salvageRest r.serial =
        (s.board.setDrv d left).putJob r.serial i) : Completes (.sectorPulse d wp) s (stays i) := by
      refine completes_pulse (hends.trans ?_)
      rw [h]
      exact Board.decide_passOver (b := s.board.putJob r.serial i) hover wp false
    refine ⟨fun hwants => ?_, fun hwants => ?_⟩
    · exact hstays _ (Board.salvageRest_waits hmserial hj (hneeds.2 hwants))
    · have hrest : moved.needsPass = false := Bool.eq_false_iff.2 (mt hneeds.1 hwants)
      refine ⟨fun hsolve => ?_, fun hsolve hquiet hnone hrel hops hauto => ?_⟩
      · exact hstays _ (Board.salvageRest_settles hmserial hj hrest (Board.outstanding_solve hsolve))
      · intro b
        obtain ⟨hbuf0, hothers⟩ := forall_and.1 hquiet
        obtain ⟨hbuf1, hdiv⟩ := forall_and.1 hothers
        have hout : (s.board.setDrv d left).outstanding r.serial = false :=
          Board.outstanding_none hsolve <| Board.setDrv_forall (y := left)
            (P := fun y => y.rc.buf0.state ≠ .writing ∧ y.rc.buf1.state ≠ .writing)
            (fun e => ⟨hbuf0 e, hbuf1 e⟩) ⟨hbuf0 d, hbuf1 d⟩
        refine completes_pulse (hends.trans ?_)
        rw [Board.salvageRest_finishes (b := s.board.setDrv d left) hmserial hj hrest hout]
        refine (Board.finishSalvage_passOver hover wp hserved hmserial hj (hkind.trans hk) (hdrive.trans hd)
          (hsectors ▸ hnone) (hrelay.trans hrel) hsolve hops (hdiv d) hdiv hauto).trans ?_
        rw [show moved.drive = d from hdrive.trans hd, hsectors]
        rfl

end Sys2Proof.Machine
end

section
/-! PROOFS. A restore that seeks back to the live cylinder, and the positioning of a job at another cylinder
(O15, O33, O34). -/

namespace Sys2Proof.Machine

section
variable {b : Board} {d : DriveNo} {y : Drive}

/-! ### The restore (R84) -/

/-- A drive whose heads are sent back to the live cylinder. -/
def Drive.seeksBack (y : Drive) (now : Time) : Drive :=
  { y with
    pins := { y.pins with onCylinder := false, seekError := false },
    da := { y.da with work := .restoreSeek, workAt := now } }

theorem Board.restoreSteps_seeks (ho : y.rc.offset = .zero) (hc : y.da.headCyl ≠ some y.lp.pos.cyl) :
    (b.setDrv d y).restoreSteps d = b.setDrv d (y.seeksBack b.now) := by
  unfold Board.restoreSteps
  rw [if_neg (by rw [Board.setDrv_drv]; exact not_not_intro ho)]
  unfold Board.restoreSeek
  dsimp only
  rw [if_neg (by rw [Board.setDrv_drv]; exact hc)]
  unfold Board.sendRestoreSeek Board.sendMove
  rw [Board.modPins_setDrv, Board.modDa_setDrv]
  rfl

/-- A pending mode put in force and the restore begun, the heads not at the live cylinder (R72, R84). -/
theorem Board.restore_seeks (ho : y.rc.offset = .zero) (hc : y.da.headCyl ≠ some y.lp.pos.cyl) :
    ((b.setDrv d y).applyPending d).restore d = b.setDrv d (y.restoring b.now) := by
  rw [Board.applyPending_setDrv]
  unfold Board.restore
  rw [Board.modDa_setDrv]
  exact Board.restoreSteps_seeks ho hc

/-! ### Positioning (R77) -/

/-- A drive whose heads are sent to the planned cylinder. -/
def Drive.seeksTrack (y : Drive) (now : Time) : Drive :=
  { y with
    pins := { y.pins with onCylinder := false, seekError := false },
    da := { y.da with
      work := if y.da.plan.recal || y.da.headCyl.isNone then .recal else .seek, workAt := now } }

theorem Board.posBegin_seeks (ho : y.rc.offset = .zero) (hc : y.da.headCyl.map (·.val) ≠ some y.da.plan.cyl) :
    (b.setDrv d y).posBegin d = b.setDrv d (y.seeksTrack b.now) := by
  unfold Board.posBegin
  rw [if_neg (by rw [Board.setDrv_drv]; exact not_not_intro ho)]
  unfold Board.posRecal
  dsimp only
  have hmove (w : Work) : ((b.setDrv d y).sendMove d).modDa d (fun da => { da with work := w, workAt := b.now }) =
      b.setDrv d { y with
        pins := { y.pins with onCylinder := false, seekError := false },
        da := { y.da with work := w, workAt := b.now } } := by
    unfold Board.sendMove
    rw [Board.modPins_setDrv, Board.modDa_setDrv]
  unfold Drive.seeksTrack
  rw [Board.setDrv_drv]
  split_ifs
  · exact hmove .recal
  · unfold Board.posSeek
    dsimp only
    rw [Board.setDrv_drv, if_neg hc]
    exact hmove .seek

end

end Sys2Proof.Machine
end

section
/-! PROOFS. The RESTART request and the RESTART reset (O15). -/

namespace Sys2Proof.Machine

/-! ### Operations in progress at the reset (R144) -/

/-- With no commit and no directory copy in progress the reset brings nothing to its end. -/
theorem finishWrites_none {b : Board} (m : Dram)
    (h : ∀ op ∈ b.ts.ops, (∀ d, op.kind ≠ .commit d) ∧ ∀ a n, op.kind ≠ .copy a n) :
    finishWrites b m = (b, m) := by
  unfold finishWrites
  refine foldl_unchanged fun k hk p => ?_
  obtain ⟨op, hop, rfl⟩ := List.mem_map.1 hk
  obtain ⟨hcommit, hcopy⟩ := h op hop
  unfold finishWrite
  split
  · next d e => exact absurd e (hcommit d)
  · next a n e => exact absurd e (hcopy a n)
  · rfl

/-! ### The drives at the reset (R70, R88) -/

/-- A drive after the reset, the seek to its live cylinder begun where the engine owned it and left no movement. -/
def Drive.restarted (x : Drive) (now : Time) : Drive :=
  let y := x.restart now
  if y.da.owner = .engineRestore ∧ y.da.work = .idle then y.seeksBack now else y

theorem Arbiter.restart_headCyl (da : Arbiter) (now : Time) (ready seeking : Bool) :
    (da.restart now ready seeking).headCyl = none := by
  unfold Arbiter.restart
  cases da.owner <;> cases seeking <;> rfl

theorem Arbiter.restart_owner_engine {da : Arbiter} (h : da.owner.engine = true) (now : Time) (ready seeking : Bool) :
    (da.restart now ready seeking).owner = .engineRestore := by
  obtain ho | ho | ho : da.owner = .enginePosition ∨ da.owner = .enginePass ∨ da.owner = .engineRestore := by
    cases ho : da.owner <;> simp [ho, Owner.engine] at h ⊢
  all_goals
    unfold Arbiter.restart
    rw [ho]

theorem Arbiter.restart_owner_live {da : Arbiter} (h : da.owner.engine = false) (now : Time) (ready seeking : Bool) :
    (da.restart now ready seeking).owner =
      if (da.owner = .liveBusy ∨ da.owner = .taking) ∧ seeking = true then .liveBusy
      else if ready then .liveIdle else .offline := by
  obtain ho | ho | ho | ho : da.owner = .liveIdle ∨ da.owner = .liveBusy ∨ da.owner = .taking ∨
      da.owner = .offline := by
    cases ho : da.owner <;> simp [ho, Owner.engine] at h ⊢
  all_goals
    unfold Arbiter.restart
    rw [ho]
    cases seeking <;> rfl

theorem Board.restartRestore_eq {b : Board} {d : DriveNo} {x : Drive} {now : Time} (h : b.drv d = x.restart now)
    (hn : b.now = now) : b.restartRestore d = b.setDrv d (x.restarted now) := by
  unfold Board.restartRestore Drive.restarted
  dsimp only
  rw [h]
  split_ifs
  · have hcyl : (x.restart now).da.headCyl ≠ some (x.restart now).lp.pos.cyl := by
      rw [show (x.restart now).da.headCyl = none from Arbiter.restart_headCyl _ _ _ _]
      nofun
    rw [← b.setDrv_self d, h, Board.restoreSteps_seeks rfl hcyl, Board.setDrv_setDrv, hn]
  · rw [← h, Board.setDrv_self]

/-- The board after the reset: its tables as after a POWER_UP or kept, its drives restarted. -/
theorem Board.restart_eq (b : Board) :
    b.restart = { b with
      drives := ⟨b.drives.d0.restarted b.now, b.drives.d1.restarted b.now, b.drives.d2.restarted b.now,
        b.drives.d3.restarted b.now⟩,
      re := .reset, su := .reset, ts := b.ts.restart, sk := b.sk.restart, filing := none, out := [], answer := none,
      exam := false, solveOver := false } := by
  unfold Board.restart
  simp only [List.foldl_cons, List.foldl_nil]
  rw [Board.restartRestore_eq (d := 0) (x := b.drives.d0) rfl rfl,
    Board.restartRestore_eq (d := 1) (x := b.drives.d1) rfl rfl,
    Board.restartRestore_eq (d := 2) (x := b.drives.d2) rfl rfl,
    Board.restartRestore_eq (d := 3) (x := b.drives.d3) rfl rfl]
  rfl

theorem Board.restart_drv (b : Board) (d : DriveNo) : b.restart.drv d = (b.drv d).restarted b.now := by
  rw [Board.restart_eq]
  fin_cases d <;> rfl

/-- The seek begun at the reset leaves the drive's lines and its arbiter's step changed, and nothing else. -/
theorem Drive.restarted_kept (x : Drive) (now : Time) :
    (x.restarted now).profile = .default ∧ (x.restarted now).rt = .reset ∧ (x.restarted now).rc = .reset ∧
      (x.restarted now).lp = { LivePath.reset with seeking := x.lp.seeking } ∧
      (x.restarted now).da.owner = (x.da.restart now x.pins.ready x.lp.seeking).owner := by
  unfold Drive.restarted
  dsimp only
  split_ifs <;> exact ⟨rfl, rfl, rfl, rfl, rfl⟩

/-- Settles O15: the request by its length, the reset by `Board.restart_eq`, each drive by its arbiter's owner. -/
theorem restart : Obligations.Restart := by
  unfold Obligations.Restart
  refine ⟨fun s ⟨⟨r, hr, hkind, hpayload⟩, hfits⟩ => ?_, fun s hdue hops => ?_⟩
  · have handled : restartRequest s.board s.link = (s.board.reply .ok false [],
        { s.link with restart := if s.link.dropReply then .due else .replying }) := by
      unfold restartRequest
      rw [hr]
      dsimp only
      rw [if_pos hkind, hkind, hpayload, if_pos hfits]
    change onLink s restartRequest = _
    rw [onLink_next, handled]
    rfl
  · have reset : exec .restartReset s = .next
        { board := s.board.restart, link := (Link.afterReset s.link.rate).joinNotice s.board.restart.restartNotice,
          dram := s.dram, pending := s.pending } := by
      change execRestartReset s = _
      unfold execRestartReset
      rw [hdue, finishWrites_none s.dram hops]
    refine ⟨_, reset, rfl, rfl, ?_⟩
    have tables := s.board.restart_eq
    refine ⟨?_, ?_, ?_, ?_, ?_, ?_, fun d => ?_⟩
    all_goals dsimp only
    · rw [tables]
    · rw [tables]
    · rw [tables]
    · rw [tables]; rfl
    · rw [tables]; rfl
    · rw [tables]; rfl
    · rw [Board.restart_drv]
      obtain ⟨hprofile, hrt, hrc, hlp, howner⟩ := (s.board.drv d).restarted_kept s.board.now
      refine ⟨hprofile, hrt, hrc, hlp, fun hlive => ?_, fun hengine => ?_⟩
      · exact howner.trans (Arbiter.restart_owner_live hlive _ _ _)
      · exact howner.trans (Arbiter.restart_owner_engine hengine _ _ _)

end Sys2Proof.Machine
end

section
/-! PROOFS. Which jobs are eligible, which of them the drive goes to, and the take itself (O33). -/

namespace Sys2Proof.Machine

/-! ### The choice (R75) -/

theorem Board.eligible_iff (b : Board) (d : DriveNo) (j : Job) :
    b.eligible d j = true ↔ j.drive = d ∧ j.state = .waiting ∧ j.needsPass = true ∧ (b.drv d).rt.doubt = false ∧
      (b.drv d).da.share.mode ≠ .liveOnly := by
  simp [Board.eligible, and_assoc]

/-- Job i comes before job k by the keys of the choice (R75). -/
def Board.outranks (b : Board) (d : DriveNo) (i k : Job) : Prop :=
  (b.choiceKey d i).1 < (b.choiceKey d k).1 ∨
    ((b.choiceKey d i).1 = (b.choiceKey d k).1 ∧ (b.choiceKey d i).2 < (b.choiceKey d k).2)

section
variable {b : Board} {d : DriveNo} {j x : Job} {js : List Job}

theorem Board.not_outranks : ¬ b.outranks d x j ↔
    (b.choiceKey d j).1 < (b.choiceKey d x).1 ∨
      ((b.choiceKey d j).1 = (b.choiceKey d x).1 ∧ (b.choiceKey d j).2 ≤ (b.choiceKey d x).2) := by
  unfold Board.outranks
  omega

theorem Board.bestJob_alone (h : b.bestJob d js = none) :
    b.bestJob d (j :: js) = if b.eligible d j then some j else none := by
  rw [Board.bestJob, h]

theorem Board.bestJob_against (h : b.bestJob d js = some x) :
    (b.eligible d j = true ∧ ¬ b.outranks d x j ∧ b.bestJob d (j :: js) = some j) ∨
      (¬ (b.eligible d j = true ∧ ¬ b.outranks d x j) ∧ b.bestJob d (j :: js) = some x) := by
  rw [Board.bestJob, h, Board.not_outranks, ← and_assoc]
  dsimp only
  split_ifs with hj
  · simp only [Bool.and_eq_true, Bool.or_eq_true, decide_eq_true_eq] at hj
    exact .inl ⟨hj, rfl⟩
  · simp only [Bool.and_eq_true, Bool.or_eq_true, decide_eq_true_eq] at hj
    exact .inr ⟨hj, rfl⟩

theorem Board.bestJob_mem (h : b.bestJob d js = some x) : x ∈ js ∧ b.eligible d x = true := by
  induction js generalizing x with
  | nil => cases h
  | cons j js ih =>
    cases hrest : b.bestJob d js with
    | none =>
      rw [Board.bestJob_alone hrest] at h
      split_ifs at h with hj
      cases h
      exact ⟨List.mem_cons_self, hj⟩
    | some y =>
      obtain ⟨hj, -, he⟩ | ⟨-, he⟩ := Board.bestJob_against (j := j) hrest
      · cases h.symm.trans he
        exact ⟨List.mem_cons_self, hj⟩
      · cases h.symm.trans he
        exact (ih hrest).imp_left (List.mem_cons_of_mem j)

theorem Board.bestJob_eq_none : b.bestJob d js = none ↔ ∀ i ∈ js, b.eligible d i = false := by
  induction js with
  | nil => simp [Board.bestJob]
  | cons j js ih =>
    rw [List.forall_mem_cons, ← ih]
    cases hrest : b.bestJob d js with
    | none => simp [Board.bestJob_alone hrest]
    | some y => obtain ⟨-, -, he⟩ | ⟨-, he⟩ := Board.bestJob_against (j := j) hrest <;> simp [he]

/-- The eligible job that outranks those filed before it and that none filed after it outranks is chosen. -/
theorem Board.bestJob_eq {before after : List Job} (hj : b.eligible d j = true)
    (hbefore : ∀ i ∈ before, b.eligible d i = true → b.outranks d j i)
    (hafter : ∀ i ∈ after, b.eligible d i = true → ¬ b.outranks d i j) :
    b.bestJob d (before ++ j :: after) = some j := by
  induction before with
  | nil =>
    change b.bestJob d (j :: after) = some j
    cases hrest : b.bestJob d after with
    | none => rw [Board.bestJob_alone hrest, if_pos hj]
    | some x =>
      obtain ⟨hx, he⟩ := Board.bestJob_mem hrest
      obtain ⟨-, -, h⟩ | ⟨h, -⟩ := Board.bestJob_against (j := j) hrest
      · exact h
      · exact absurd ⟨hj, hafter x hx he⟩ h
  | cons i is ih =>
    obtain ⟨hi, his⟩ := List.forall_mem_cons.1 hbefore
    obtain ⟨he, hn, -⟩ | ⟨-, h⟩ := Board.bestJob_against (j := i) (ih his)
    · exact absurd (hi he) hn
    · exact h

/-- PRESSING comes before PATIENT, then the nearer job (R75). -/
theorem Board.outranks_iff {i k : Job} : b.outranks d i k ↔
    (i.level = .pressing ∧ k.level = .patient) ∨ (i.level = k.level ∧
      ((i.cylinderNow : Int) - ((((b.drv d).da.headCyl.map (·.val)).getD 0 : Nat) : Int)).natAbs <
        ((k.cylinderNow : Int) - ((((b.drv d).da.headCyl.map (·.val)).getD 0 : Nat) : Int)).natAbs) := by
  unfold Board.outranks Board.choiceKey
  dsimp only
  generalize ((b.drv d).da.headCyl.map (·.val)).getD 0 = h
  cases i.level <;> cases k.level <;> simp <;> omega

end

/-! ### The drive handed to a SALVAGE (R76, R77, R93) -/

/-- A SALVAGE made ACTIVE: PATIENT again, its recalibrate mark used up (R74, R93, R96). -/
def Job.activated (j : Job) : Job := { j with state := .active, level := .patient, recal := false }

/-- A drive handed to a SALVAGE at its ladder step, its heads on their way (R76, R77). -/
def Drive.takenFor (y : Drive) (j : Job) (st : LadderStep) (now : Time) : Drive :=
  { y with
    pins := { y.pins with onCylinder := false, seekError := false },
    da := { y.da with
      owner := .enginePosition, served := some { serial := j.serial, id := j.id }, retryUsed := false,
      abandon := false, preempted := false, passKind := none,
      work := if st.recal || j.recal || y.da.headCyl.isNone then .recal else .seek, workAt := now,
      plan := { cyl := j.cyl.val, head := j.head.val, shift := st.shift, offset := .zero,
                recal := st.recal || j.recal } } }

theorem Board.job_of_mem {b : Board} {j : Job} (hm : j ∈ b.re.jobs)
    (hu : ∀ i ∈ b.re.jobs, i.serial = j.serial → i = j) : b.job j.serial = some j := by
  unfold Board.job
  cases h : b.re.jobs.find? (·.serial = j.serial) with
  | none => exact absurd hm fun hm => by simpa using List.find?_eq_none.1 h j hm
  | some i =>
    have hi : i.serial = j.serial := by simpa using List.find?_some h
    rw [hu i (List.mem_of_find?_eq_some h) hi]

section
variable {b : Board} {d : DriveNo} {y : Drive} {j : Job} {st : LadderStep}

theorem Board.activate_salvage (hk : j.kind = .salvage) (hu : ∀ i ∈ b.re.jobs, i.serial = j.serial → i = j) :
    b.activate j = b.putJob j.serial j.activated := by
  unfold Board.activate Board.putJob Board.modJob
  dsimp only
  rw [List.map_congr_left fun i hi => ?_]
  split_ifs with h
  · obtain rfl := hu i hi h
    split
    · next he => cases hk.symm.trans he
    · rfl
  · rfl

/-- The settings of a SALVAGE's step (R77, R96). -/
def Job.planAt (j : Job) (st : LadderStep) : PosPlan :=
  { cyl := j.cyl.val, head := j.head.val, shift := st.shift, offset := st.offset, recal := st.recal || j.recal }

theorem Board.settings_salvage (hk : j.kind = .salvage) (hst : b.re.ladder[j.step]? = some st) :
    b.settings j = j.planAt st := by
  unfold Board.settings Engine.stepOf
  rw [hk]
  dsimp only
  rw [List.getD_eq_getElem?_getD, hst]
  rfl

theorem Board.serve_salvage (hk : j.kind = .salvage) (hst : b.re.ladder[j.step]? = some st) (hso : st.offset = .zero)
    (ho : y.rc.offset = .zero) (hc : y.da.headCyl ≠ some j.cyl) (hm : j ∈ b.re.jobs)
    (hu : ∀ i ∈ b.re.jobs, i.serial = j.serial → i = j) :
    (b.setDrv d y).serve d j = (true, (b.putJob j.serial j.activated).setDrv d (y.takenFor j st b.now)) := by
  have hjob : ((b.setDrv d y).putJob j.serial j.activated).job j.serial = some j.activated :=
    Board.putJob_job (b := b.setDrv d y) rfl (Board.job_of_mem hm hu)
  unfold Board.serve
  dsimp only
  rw [Board.activate_salvage (b := b.setDrv d y) hk hu, Board.settings_salvage (b := b.setDrv d y) hk hst, hjob]
  have hsurvey : ¬ j.activated.kind = .survey := fun h => by cases hk.symm.trans h
  dsimp only
  rw [if_neg fun h => hsurvey h.1, if_neg hsurvey]
  refine congrArg (Prod.mk true) ?_
  rw [show (b.setDrv d y).putJob j.serial j.activated = (b.putJob j.serial j.activated).setDrv d y from rfl,
    Board.modDa_setDrv]
  refine (Board.posBegin_seeks ?_ fun h => hc ?_).trans ?_
  · exact ho
  · obtain ⟨n, hn, hval⟩ := Option.map_eq_some_iff.1 h
    exact hn.trans (congrArg some (Fin.ext hval))
  · unfold Drive.seeksTrack Drive.takenFor Job.planAt
    rw [hso]
    rfl

theorem Board.takeFor_served {c : Board} (h : b.serve d j = (true, c)) : b.takeFor d j = c := by
  unfold Board.takeFor
  rw [h]
  rfl

/-! ### When the drive is taken (R76) -/

theorem Board.takeNow_salvageOnly (ho : (b.drv d).da.owner = .liveIdle) (hm : (b.drv d).da.share.mode = .salvageOnly) :
    b.takeNow d = b.choose d := by
  unfold Board.takeNow
  simp [ho, hm]

section
variable (ho : (b.drv d).da.owner = .liveIdle)
  (hm : (b.drv d).da.share.mode = .liveFirst ∨ (b.drv d).da.share.mode = .salvageFirst)
include ho hm

theorem Board.takeNow_pressing (hp : b.pressing d = true) : b.takeNow d = b.choose d := by
  unfold Board.takeNow
  obtain hm | hm := hm <;> simp [ho, hm, hp]

theorem Board.takeNow_grace {t : Time} (hf : (b.drv d).da.seekFault = false) (hi : (b.drv d).da.idleStart = some t)
    (ht : (b.drv d).da.share.grace * 1000 ≤ b.since t) : b.takeNow d = b.choose d := by
  unfold Board.takeNow
  obtain hm | hm := hm <;> simp [ho, hm, hf, hi, ht]

end

theorem Board.graceExpiry_due {t : Time} (ho : (b.drv d).da.owner = .liveIdle) (hi : (b.drv d).da.idleStart = some t)
    (ht : (b.drv d).da.share.grace * 1000 ≤ b.since t) : b.graceExpiry d = b.tryTake d := by
  unfold Board.graceExpiry
  simp [ho, hi, ht]

theorem Board.starveExpiry_due {id : Nat} (hj : b.jobById id = some j) (hw : j.state = .waiting)
    (hl : j.level = .patient) (ht : (b.drv j.drive).da.share.starve * 1000 < b.since j.since) :
    b.starveExpiry id = (b.press j.serial).takeOrWait j.drive := by
  unfold Board.starveExpiry Board.starved
  simp [hj, hw, hl, ht]

/-- The choice reads the jobs, the speed doubt, the share mode and the head cylinder (R75). -/
theorem Board.choose_congr {c : Board} (hre : c.re = b.re) (hd : (c.drv d).rt.doubt = (b.drv d).rt.doubt)
    (hm : (c.drv d).da.share.mode = (b.drv d).da.share.mode) (hh : (c.drv d).da.headCyl = (b.drv d).da.headCyl) :
    c.choose d = b.choose d := by
  have he : c.eligible d = b.eligible d := by
    funext i
    unfold Board.eligible
    rw [hd, hm]
  have hkey : c.choiceKey d = b.choiceKey d := by
    funext i
    unfold Board.choiceKey
    rw [hh]
  have hbest (l : List Job) : c.bestJob d l = b.bestJob d l := by
    induction l with
    | nil => rfl
    | cons i is ih => rw [Board.bestJob, Board.bestJob, ih, he, hkey]
  unfold Board.choose
  rw [hre, hbest]

/-- A drive between passes, serving no job (R80). -/
def Drive.unserved (y : Drive) : Drive := { y with da := { y.da with served := none, work := .idle } }

/-- The decision between passes with no command held and no mode pending: the chosen job is served (R80). -/
theorem Board.decide_serves {c : Board} (hh : y.da.held = false) (hp : y.da.share.pending = none)
    (hj : (b.setDrv d y).choose d = some j)
    (hs : (b.setDrv d y.unserved).serve d j = (true, c)) :
    (b.setDrv d y).decide d = c := by
  have hmode : y.da.share.mode ≠ .liveOnly := by
    obtain ⟨-, he⟩ := Board.bestJob_mem hj
    obtain ⟨-, -, -, -, hmode⟩ := (Board.eligible_iff _ _ _).1 he
    rwa [Board.setDrv_drv] at hmode
  have hchoose : (b.setDrv d y.unserved).choose d = some j := by
    refine (Board.choose_congr (b := b.setDrv d y) (c := b.setDrv d y.unserved) rfl ?_ ?_ ?_).trans hj
    all_goals rw [Board.setDrv_drv, Board.setDrv_drv]; rfl
  have hunserved : ((b.setDrv d y).applyPending d).modDa d (fun da => { da with served := none, work := .idle }) =
      b.setDrv d y.unserved := by
    rw [Board.applyPending_none (by rw [Board.setDrv_drv]; exact hp), Board.modDa_setDrv]
    rfl
  unfold Board.decide Board.decideFor
  rw [hunserved]
  dsimp only
  rw [hchoose, Board.setDrv_drv, if_neg (by simp [Drive.unserved, hh, hmode])]
  dsimp only
  rw [hs]
  rfl

section
variable (hk : j.kind = .salvage) (hst : b.re.ladder[j.step]? = some st) (hso : st.offset = .zero)
  (ho : y.rc.offset = .zero) (hc : y.da.headCyl ≠ some j.cyl) (hu : ∀ i ∈ b.re.jobs, i.serial = j.serial → i = j)
include hk hst hso ho hc hu

theorem Board.decide_salvage (hh : y.da.held = false) (hp : y.da.share.pending = none)
    (hj : (b.setDrv d y).choose d = some j) :
    (b.setDrv d y).decide d = (b.putJob j.serial j.activated).setDrv d (y.takenFor j st b.now) :=
  Board.decide_serves hh hp hj
    (Board.serve_salvage (y := y.unserved) hk hst hso ho hc (Board.bestJob_mem hj).1 hu)

theorem Board.tryTake_salvage (hj : (b.setDrv d y).takeNow d = some j) (hm : j ∈ b.re.jobs) :
    (b.setDrv d y).tryTake d = (b.putJob j.serial j.activated).setDrv d (y.takenFor j st b.now) := by
  unfold Board.tryTake
  rw [hj]
  exact Board.takeFor_served (Board.serve_salvage hk hst hso ho hc hm hu)

theorem Board.takeOrWait_salvage (hj : (b.setDrv d y).takeNow d = some j) (hm : j ∈ b.re.jobs) :
    (b.setDrv d y).takeOrWait d = (b.putJob j.serial j.activated).setDrv d (y.takenFor j st b.now) := by
  unfold Board.takeOrWait
  rw [Board.tryTake_salvage hk hst hso ho hc hu hj hm]
  refine Board.enterTaking_other ?_
  rw [Board.setDrv_drv]
  nofun

end

/-- A SALVAGE with a further pass to make at its ladder step waits again after a pass (R93, R95). -/
theorem Board.enginePassEnd_again {n : Nat} {full : Bool} (hj : b.job n = some j) (hk : j.kind = .salvage)
    (hx : j.exhausted = false) (hst : b.re.ladder[j.step]? = some st) (hp : (j.passed full).passes < st.passes)
    (hu : ∃ q ∈ j.sectors, q.status.unresolved = true) (found : Bool) :
    b.enginePassEnd n full found = b.putJob n (((j.counted full).passed full).waits b.now) := by
  obtain ⟨-, hn⟩ := Board.job_mem hj
  have hmore : ¬ (j.counted full).exhausted = true := by
    rw [show (j.counted full).exhausted = false from hx]
    decide
  have hmoved : (j.counted full).moved b.re.ladder full = (j.counted full).passed full :=
    (Job.moved_inside full hmore hst).trans (if_pos hp)
  rw [Board.enginePassEnd_salvage hj hn hk, hmoved]
  exact Board.salvageRest_waits hn hj ((Job.needsPass_iff (j := (j.counted full).passed full) hk).2 ⟨hx, hu⟩)

end

theorem Job.needsPass_survey {j : Job} (hk : j.kind = .survey) : j.needsPass = true ↔ j.curCyl ≤ j.endCyl.val := by
  simp [Job.needsPass, hk]

theorem Job.needsPass_relay {j : Job} (hk : j.kind = .relay) : j.needsPass = true := by
  simp [Job.needsPass, hk]

/-- Settles O33: the choice is `bestJob` over the job table; each take that R76 makes, and the decision between passes,
serves the chosen SALVAGE by `serve_salvage`. -/
theorem takeMade : Obligations.TakeMade := by
  unfold Obligations.TakeMade
  refine ⟨fun b d j => ?_, fun d j st s => ?_⟩
  · intro needs
    refine ⟨?_, Board.bestJob_eq_none, fun before after hjobs he => ?_⟩
    · have hneeds : j.needsPass = true ↔ needs := by
        dsimp only [needs]
        cases hk : j.kind with
        | salvage => exact Job.needsPass_iff hk
        | survey => exact Job.needsPass_survey hk
        | relay => exact iff_of_true (Job.needsPass_relay hk) trivial
      rw [Board.eligible_iff, hneeds]
    · intro far beats hbefore hafter
      have hbeats (i k : Job) : beats i k ↔ b.outranks d i k := by
        have hfar (i : Job) : far i = ((i.cylinderNow : Int) -
            ((((b.drv d).da.headCyl.map (·.val)).getD 0 : Nat) : Int)).natAbs := by
          simp only [far, Job.cylinderNow]
          cases i.kind <;> cases (b.drv d).da.headCyl <;> rfl
        rw [Board.outranks_iff, ← hfar, ← hfar]
      unfold Board.choose
      rw [hjobs]
      exact Board.bestJob_eq he (fun i hi h => (hbeats j i).1 (hbefore i hi h))
        fun i hi h => mt (hbeats i j).2 (hafter i hi h)
  · intro x now shared jobs taken ho hc hk hst hso
    have htaken (b : Board) (hh : (b.drv d).da.headCyl = x.da.headCyl) :
        taken b = (b.putJob j.serial j.activated).setDrv d ((b.drv d).takenFor j st now) := by
      unfold Drive.takenFor
      rw [hh]
      rfl
    refine ⟨fun hidle hjob hu => ⟨fun hchoose => ?_, ?_⟩, ?_⟩
    · have hmem : j ∈ s.board.re.jobs := (Board.bestJob_mem hchoose).1
      have take (hnow : s.board.takeNow d = some j) : s.board.takeOrWait d = taken s.board := by
        have htake := Board.takeOrWait_salvage (b := s.board) (d := d) (y := x) hk hst hso ho hc hu
          (by rw [Board.setDrv_self]; exact hnow) hmem
        rw [Board.setDrv_self] at htake
        exact htake.trans (htaken s.board rfl).symm
      refine ⟨fun t hmode hfault hpress hstart hgrace => ?_, fun hmode => ?_, fun hmode hpress => ?_⟩
      · have hnow : s.board.takeNow d = some j :=
          (Board.takeNow_grace hidle hmode hfault hstart hgrace).trans hchoose
        have htry := Board.tryTake_salvage (b := s.board) (d := d) (y := x) hk hst hso ho hc hu
          (by rw [Board.setDrv_self]; exact hnow) hmem
        rw [Board.setDrv_self] at htry
        refine completes_of_onBoard (f := fun b => b.graceExpiry d) rfl ?_
        exact (Board.graceExpiry_due hidle hstart hgrace).trans (htry.trans (htaken s.board rfl).symm)
      · exact completes_of_onBoard (f := fun b => b.takeOrWait d) rfl
          (take ((Board.takeNow_salvageOnly hidle hmode).trans hchoose))
      · exact completes_of_onBoard (f := fun b => b.takeOrWait d) rfl
          (take ((Board.takeNow_pressing hidle hmode hpress).trans hchoose))
    · intro id hid hd hwait hlevel hstarve hmode pressed hpress hchoose
      let i : Job := { j with level := .pressing }
      have hui (k : Job) (hm : k ∈ pressed.re.jobs) (hks : k.serial = i.serial) : k = i := by
        obtain ⟨k', hm', rfl⟩ := List.mem_map.1 hm
        dsimp only at hks ⊢
        split_ifs at hks ⊢ with h
        · rw [hu k' hm' h]
        · exact absurd hks h
      have hnow : pressed.takeNow d = some i := (Board.takeNow_pressing (b := pressed) hidle hmode hpress).trans hchoose
      have htake := Board.takeOrWait_salvage (b := pressed) (d := d) (y := x) (j := i) hk hst hso ho hc hui
        (by rw [show pressed.setDrv d x = pressed from pressed.setDrv_self d]; exact hnow) (Board.bestJob_mem hchoose).1
      rw [show pressed.setDrv d x = pressed from pressed.setDrv_self d] at htake
      refine completes_of_onBoard (f := fun b => b.starveExpiry id.toNat) rfl ?_
      rw [Board.starveExpiry_due hid hwait hlevel (by rw [hd]; exact hstarve), hd]
      exact htake.trans (htaken pressed rfl).symm
    · intro wp r b hquiet hcloses hfill hmask hserved hheld hpending y pulsed again hb hchoose hu
      obtain ⟨-, -, hexam, -⟩ := hquiet
      let left := (x.passPulsed wp).passLeft
      have hpulsed : pulsed = s.board.setDrv d left := by
        dsimp only [left]
        unfold Drive.passLeft
        rw [← hmask]
        rfl
      have hends : ∃ c : Board, c.now = now ∧ c.re.ladder = s.board.re.ladder ∧ b = c.setDrv d left ∧
          s.board.sectorPulse d wp = (c.setDrv d left).decide d := by
        rw [Board.sectorPulse_ends wp hcloses hexam hfill hmask hserved]
        obtain ⟨hnone, rfl⟩ | ⟨i, step, hi, hik, hix, hstep, hpass, hres, hslots, hmissed, rfl⟩ := hb
        · refine ⟨s.board, rfl, rfl, hpulsed, ?_⟩
          unfold Board.enginePassEnd
          rw [show (s.board.setDrv d left).job r.serial = none from hnone]
        · refine ⟨s.board.putJob r.serial (((i.counted true).passed true).waits now), rfl, rfl, ?_, ?_⟩
          · rw [hpulsed]
            rfl
          · have hfull : x.passFull = true := by simp [Drive.passFull, hslots, hmissed]
            rw [hfull, Board.enginePassEnd_again (b := s.board.setDrv d left) (full := true) hi hik hix hstep hpass
              hres]
            rfl
      obtain ⟨c, hnow, hladder, rfl, hpulse⟩ := hends
      refine completes_pulse (hpulse.trans ?_)
      rw [Board.decide_salvage (b := c) (y := left) hk (hladder ▸ hst) hso ho hc hu hheld hpending hchoose,
        htaken _ (by rw [Board.setDrv_drv]; rfl), Board.setDrv_drv, hnow]
      exact (Board.setDrv_setDrv _ _ _ _).symm

end Sys2Proof.Machine
end

section
/-! PROOFS. The starve limit and the hold limit (O34). -/

namespace Sys2Proof.Machine

section
variable {b : Board} {d : DriveNo} {y : Drive} {j : Job}

/-! ### The starve limit (R74, R76) -/

/-- No job is eligible: the drive is under speed doubt or LIVE_ONLY (R75). -/
theorem Board.eligible_never (h : (b.drv d).da.share.mode = .liveOnly ∨ (b.drv d).rt.doubt = true) (i : Job) :
    b.eligible d i = false := by
  refine Bool.eq_false_iff.2 fun he => ?_
  obtain ⟨-, -, -, hdoubt, hmode⟩ := (Board.eligible_iff _ _ _).1 he
  obtain h | h := h
  · exact hmode h
  · rw [hdoubt] at h
    cases h

theorem Board.pressing_never (h : ∀ i, b.eligible d i = false) : b.pressing d = false :=
  List.any_eq_false.2 fun i _ => by simp [h i]

theorem Board.tryTake_owned (h : (b.drv d).da.owner ≠ .liveIdle) : b.tryTake d = b := by
  unfold Board.tryTake Board.takeNow
  dsimp only
  rw [if_pos h]

theorem Board.tryTake_never (h : ∀ i, b.eligible d i = false) : b.tryTake d = b := by
  have hchoose : b.choose d = none := Board.bestJob_none h
  have hnow : b.takeNow d = none := by
    unfold Board.takeNow
    dsimp only
    rw [hchoose]
    split_ifs <;> repeat' split
    all_goals rfl
  unfold Board.tryTake
  rw [hnow]

theorem Board.enterTaking_salvageOnly (h : (b.drv d).da.share.mode = .salvageOnly) : b.enterTaking d = b := by
  unfold Board.enterTaking
  simp [h]

theorem Board.enterTaking_calm (h : b.pressing d = false) : b.enterTaking d = b := by
  unfold Board.enterTaking
  simp [h]

/-- With no job eligible, or the drive held from a take by its owner, nothing comes of a job's level (R75, R76). -/
theorem Board.takeOrWait_stays (h : ((b.drv d).da.owner ≠ .liveIdle ∧ (b.drv d).da.owner ≠ .liveBusy) ∨
    ((b.drv d).da.owner = .liveBusy ∧ (b.drv d).da.share.mode = .salvageOnly) ∨
    (b.drv d).da.share.mode = .liveOnly ∨ (b.drv d).rt.doubt = true) : b.takeOrWait d = b := by
  unfold Board.takeOrWait
  obtain ⟨hidle, hbusy⟩ | ⟨hbusy, hmode⟩ | hnever := h
  · rw [Board.tryTake_owned hidle, Board.enterTaking_other hbusy]
  · rw [Board.tryTake_owned (by rw [hbusy]; decide), Board.enterTaking_salvageOnly hmode]
  · have he := Board.eligible_never hnever
    rw [Board.tryTake_never he, Board.enterTaking_calm (Board.pressing_never he)]

/-- A PRESSING eligible job while the drive is LIVE_BUSY (R76). -/
theorem Board.takeOrWait_busy (ho : (b.drv d).da.owner = .liveBusy) (hm : (b.drv d).da.share.mode ≠ .salvageOnly)
    (hp : b.pressing d = true) :
    b.takeOrWait d = b.setDrv d { b.drv d with da := { (b.drv d).da with owner := .taking } } := by
  unfold Board.takeOrWait
  rw [Board.tryTake_owned (by rw [ho]; decide), Board.enterTaking_busy ho hm, if_pos hp]
  rfl

theorem Board.press_pressing (hj : j ∈ b.re.jobs) (hd : j.drive = d) (hw : j.state = .waiting)
    (hn : j.needsPass = true) (hdoubt : (b.drv d).rt.doubt = false) (hm : (b.drv d).da.share.mode ≠ .liveOnly) :
    (b.press j.serial).pressing d = true := by
  refine List.any_eq_true.2 ⟨{ j with level := .pressing }, List.mem_map.2 ⟨j, hj, if_pos rfl⟩, ?_⟩
  rw [Bool.and_eq_true, Board.eligible_iff]
  exact ⟨⟨hd, hw, hn, hdoubt, hm⟩, rfl⟩

/-! ### The hold limit (R83) -/

/-- A board with HOLD_LIMIT raised (R83). -/
def Board.holdNoted (b : Board) (d : DriveNo) (what : Stopped) (served : Option Nat) (t : Time) : Board :=
  { b with out := b.out ++ [⟨some d, b.now, .holdLimit served what t⟩] }

/-- A drive whose held command has met the hold limit (R83). -/
def Drive.limited (x : Drive) : Drive := { x with da := { x.da with limitHit := true } }

theorem Board.holdDue_iff : b.holdDue d = true ↔ (b.drv d).da.held = true ∧ (b.drv d).da.limitHit = false ∧
    ∃ t, (b.drv d).da.holdStart = some t ∧ (b.drv d).da.share.hold * 1000 ≤ b.since t := by
  unfold Board.holdDue
  dsimp only
  split
  · next t h => simp [h, and_assoc]
  · next h => simp [h]

/-- The hold limit does nothing before it is due, and while a live command is awaited or under way (R83). -/
theorem Board.holdExpiry_early (h : b.holdDue d = false ∨ (b.drv d).da.owner = .liveIdle ∨
    (b.drv d).da.owner = .liveBusy ∨ (b.drv d).da.owner = .taking ∨ (b.drv d).da.owner = .offline) :
    b.holdExpiry d = b := by
  unfold Board.holdExpiry
  obtain h | h | h | h | h := h
  · rw [h]
    rfl
  all_goals
    dsimp only
    rw [h]
    split_ifs <;> rfl

section
variable {t : Time} (hdue : b.holdDue d = true) (ht : (b.drv d).da.holdStart = some t)
include ht

theorem Board.noteHold_eq (what : Stopped) :
    b.noteHold d what =
      (b.holdNoted d what (if (b.drv d).da.owner = .engineRestore then none else (b.drv d).da.served.map (·.id)) t).setDrv
        d (b.drv d).limited := by
  unfold Board.noteHold
  dsimp only
  rw [ht]
  rfl

include hdue

theorem Board.holdExpiry_position (ho : (b.drv d).da.owner = .enginePosition) :
    b.holdExpiry d = (b.holdNoted d .position ((b.drv d).da.served.map (·.id)) t).setDrv d
      { (b.drv d).limited with da := { (b.drv d).limited.da with preempted := true } } := by
  unfold Board.holdExpiry
  dsimp only
  rw [if_pos hdue, ho]
  dsimp only
  rw [Board.noteHold_eq ht, Board.modDa_setDrv, if_neg (by rw [ho]; decide)]

theorem Board.holdExpiry_restore (ho : (b.drv d).da.owner = .engineRestore) :
    b.holdExpiry d = (b.holdNoted d .none none t).setDrv d (b.drv d).limited := by
  unfold Board.holdExpiry
  dsimp only
  rw [if_pos hdue, ho]
  dsimp only
  rw [Board.noteHold_eq ht, if_pos ho]

variable (ho : (b.drv d).da.owner = .enginePass)
include ho

theorem Board.holdExpiry_read (hk : (b.drv d).da.passKind = some .read) :
    b.holdExpiry d = (((b.holdNoted d .pass ((b.drv d).da.served.map (·.id)) t).setDrv d
      (b.drv d).limited).stopChannel d).passStop d := by
  unfold Board.holdExpiry
  dsimp only
  rw [if_pos hdue, ho]
  dsimp only
  rw [hk]
  dsimp only
  rw [Board.noteHold_eq ht, if_neg (by rw [ho]; decide)]

theorem Board.holdExpiry_write (hk : (b.drv d).da.passKind = some .write) (hw : (b.drv d).da.writing = none) :
    b.holdExpiry d = ((b.holdNoted d .write ((b.drv d).da.served.map (·.id)) t).setDrv d
      (b.drv d).limited).passStop d := by
  unfold Board.holdExpiry
  dsimp only
  rw [if_pos hdue, ho]
  dsimp only
  rw [hk]
  dsimp only
  rw [if_neg (by rw [hw]; decide), Board.noteHold_eq ht, if_neg (by rw [ho]; decide)]

theorem Board.holdExpiry_writing (hk : (b.drv d).da.passKind = some .write) (hw : (b.drv d).da.writing ≠ none) :
    b.holdExpiry d = (b.holdNoted d .write ((b.drv d).da.served.map (·.id)) t).setDrv d
      { (b.drv d).limited with da := { (b.drv d).limited.da with stopAtEnd := true } } := by
  unfold Board.holdExpiry
  dsimp only
  rw [if_pos hdue, ho]
  dsimp only
  rw [hk]
  dsimp only
  rw [if_pos (Option.isSome_iff_ne_none.2 hw), Board.noteHold_eq ht, Board.modDa_setDrv, if_neg (by rw [ho]; decide)]

end

/-! ### A pass stopped at once (R67, R79, R83) -/

/-- The channel stopped in a slot that no buffer receives (R67). -/
def Channel.stopped (rc : Channel) : Channel :=
  { rc with
    activity := .idle, setup := .none, shift := 0,
    slotFor := if rc.activity = .idle then rc.slotFor else none,
    notKept := rc.activity = .idle && rc.notKept }

theorem Board.stopChannel_unread (ha : y.rc.activity ≠ .complete) (hb : y.rc.slotBuf = none)
    (hs : ∀ ps, y.rc.setup = .pass ps → ∀ q ∈ ps.plans, q.acted = true ∨ q.capture = none)
    (hl : ∀ ls, y.rc.setup ≠ .live ls) :
    (b.setDrv d y).stopChannel d = b.setDrv d { y with rc := y.rc.stopped } := by
  have hlost : ((b.setDrv d y).loseBuffer d).idleSlot d = b.setDrv d { y with rc := y.rc.idled } := by
    have hlose : (b.setDrv d y).loseBuffer d = b.setDrv d y := by
      unfold Board.loseBuffer
      rw [Board.setDrv_drv]
      dsimp only
      rw [hb]
    rw [hlose]
    exact Board.modRc_setDrv _ _ _ _
  have hclosed (ho : y.rc.activity ≠ .idle) : (((b.setDrv d y).loseBuffer d).idleSlot d).withdraw d =
      b.setDrv d { y with rc := y.rc.stopped } := by
    rw [hlost, Board.withdraw_acted (y := { y with rc := y.rc.idled }) hs hl]
    unfold Channel.stopped
    rw [if_neg ho, decide_eq_false ho, hb]
    rfl
  unfold Board.stopChannel
  rw [Board.setDrv_drv]
  dsimp only
  split
  · next h => exact absurd h ha
  · next h =>
    rw [Board.withdraw_acted hs hl]
    unfold Channel.stopped
    rw [if_pos h, decide_eq_true h, Bool.true_and, ← h]
  · next h => exact hclosed (by rw [h]; decide)
  · next h => exact hclosed (by rw [h]; decide)

/-- A pass stopped with its set-up gone, no survey of it, and the heads not at the live cylinder: the job is told and
the restore begins (R79, R83, R84). -/
theorem Board.passStop_seeks {c : Board} {z : Drive} {n : Nat} {i : Job}
    (hpass : (b.setDrv d y).endPass d false = (c.setDrv d z).putJob n i) (ho : z.rc.offset = .zero)
    (hc : z.da.headCyl ≠ some z.lp.pos.cyl) :
    (b.setDrv d y).passStop d = (c.putJob n i).setDrv d (z.restoring c.now) := by
  unfold Board.passStop
  rw [hpass]
  exact Board.restore_seeks (b := c.putJob n i) ho hc

/-- A board with a drive's write-buffer fill withdrawn (R141). -/
def Board.unfilled (b : Board) (d : DriveNo) : Board :=
  { b with ts := { b.ts with ops := b.ts.ops.filter (!·.fillsFor d) } }

section
variable (hops : ∀ op ∈ b.ts.ops, op.fillsFor d = true → op.wrote = []) (hkeep : ∀ p ∈ b.ts.keep, p.2 ≠ .draining)
include hops hkeep

theorem Board.dropWriteFill_unwritten :
    (b.setDrv d y).dropWriteFill d = (b.unfilled d).setDrv d { y with da := { y.da with wbuf := .empty } } := by
  have hdrop : b.dropOps (·.fillsFor d) = b.unfilled d := by
    rw [Board.dropOps_undrained _ hkeep, writeRec_unwritten hops]
    rfl
  have hfill : (b.setDrv d y).dropWriteFill d =
      ((b.dropOps (·.fillsFor d)).setDrv d y).modDa d fun da => { da with wbuf := .empty } := rfl
  rw [hfill, Board.modDa_setDrv, hdrop]

/-- A WRITE pass that ends between two sectors, its write-buffer fill withdrawn (R79, R141). -/
theorem Board.endPass_withdrawn {r : JobRef} (full : Bool) (he : b.exam = false) (hs : y.rc.setup = .none)
    (hm : y.da.surveyMask = 0) (hr : y.da.served = some r) :
    (b.setDrv d y).endPass d full =
      ((b.unfilled d).setDrv d (Drive.passLeft { y with
        rc := { y.rc with shift := 0 }, da := { y.da with wbuf := .empty } })).enginePassEnd r.serial full false := by
  have hrc : { y.rc with setup := .none, shift := 0 } = { y.rc with shift := 0 } := by rw [← hs]
  unfold Board.endPass
  rw [Board.withdraw_acted (fun ps h => by cases hs.symm.trans h) (fun ls h => by cases hs.symm.trans h), hrc,
    Board.dropWriteFill_unwritten hops hkeep, Board.reportSurvey_none (by rw [Board.setDrv_drv]; exact hm),
    Board.setDrv_drv]
  dsimp only
  rw [Board.examine_of_not_exam (b := (b.unfilled d).setDrv d _) he, Board.modDa_setDrv, hr, hm]
  rfl

end

/-- A RELAY whose WRITE pass is abandoned waits again (R93, R106). -/
theorem Board.enginePassEnd_abandoned {n : Nat} (hj : b.job n = some j) (hk : j.kind = .relay)
    (hw : j.relayStep = .write) (hf : j.fatal = false) (found : Bool) :
    b.enginePassEnd n false found = b.putJob n (Job.waits { j.counted false with stale := false } b.now) := by
  obtain ⟨-, rfl⟩ := Board.job_mem hj
  rw [Board.enginePassEnd_relay hj hk]
  exact Board.relayEnd_abandoned (c := j.counted false) hw hf

end

/-- Settles O34: the starve limit by `takeOrWait` after the press, the hold limit by the arbiter's owner and the kind of
its pass. -/
theorem limitsExpire : Obligations.LimitsExpire := by
  unfold Obligations.LimitsExpire
  refine fun s => ⟨fun id j hid hwait hlevel => ?_, fun d => ?_⟩
  · intro x da pressed never hstarve
    have hmem : j ∈ s.board.re.jobs := List.mem_of_find?_eq_some hid
    have expires {b : Board} (h : (pressed s.board).takeOrWait j.drive = b) :
        Completes (.starveLimitExpiry id) s b :=
      completes_of_onBoard (f := fun b => b.starveExpiry id.toNat) rfl
        ((Board.starveExpiry_due hid hwait hlevel hstarve).trans h)
    refine ⟨fun h => expires (Board.takeOrWait_stays (b := pressed s.board) h), fun ho hn hm hneeds => ?_, fun ho => ?_⟩
    · have hmode : da.share.mode ≠ .liveOnly := fun h => hn (.inl h)
      have hdoubt : x.rt.doubt = false := Bool.eq_false_iff.2 fun h => hn (.inr h)
      exact expires (Board.takeOrWait_busy (b := pressed s.board) ho hm
        (Board.press_pressing hmem rfl hwait hneeds hdoubt hmode))
    · change onBoard s (fun b => b.starveExpiry id.toNat) =
        onBoard { s with board := _ } (fun b => b.takeOrWait j.drive)
      rw [onBoard_next, onBoard_next, Board.starveExpiry_due hid hwait hlevel hstarve]
      rfl
  · intro x now
    refine ⟨fun h => ?_, fun t => ?_⟩
    · refine completes_of_onBoard (f := fun b => b.holdExpiry d) rfl (Board.holdExpiry_early ?_)
      by_cases hdue : s.board.holdDue d = true
      · obtain ⟨hheld, hlimit, t, ht, hlong⟩ := Board.holdDue_iff.1 hdue
        obtain h | h | h | h := h
        · exact absurd (h.symm.trans hheld) (by decide)
        · exact absurd (h.symm.trans hlimit) (by decide)
        · exact absurd (h t ht) (not_lt.2 hlong)
        · exact .inr h
      · exact .inl (Bool.eq_false_iff.2 hdue)
    · intro raised stop ended id waits hheld hlimit hstart hlong
      have hdue : s.board.holdDue d = true := Board.holdDue_iff.2 ⟨hheld, hlimit, t, hstart, hlong⟩
      have expires {b : Board} (h : s.board.holdExpiry d = b) : Completes (.holdLimitExpiry d) s b :=
        completes_of_onBoard (f := fun b => b.holdExpiry d) rfl h
      refine ⟨fun ho => ?_, ?_, ?_, fun ho hk hw => ?_, fun ho => ?_⟩
      · exact expires (Board.holdExpiry_position hdue hstart ho)
      · intro r j st hquiet ho hk hact hbuf hmask hoff hcyl hserved hj hkind hx hst hpass hres hplans hlive hfill rc
        obtain ⟨-, -, hexam, -⟩ := hquiet
        refine expires ((Board.holdExpiry_read hdue hstart ho hk).trans ?_)
        let noted := s.board.holdNoted d .pass id t
        have hstop : (noted.setDrv d x.limited).stopChannel d = noted.setDrv d { x.limited with rc := x.rc.stopped } :=
          Board.stopChannel_unread (y := x.limited) hact hbuf hplans hlive
        have hend := Board.endPass_closed (b := noted) (d := d) (y := { x.limited with rc := x.rc.stopped }) false hexam
          hfill (fun _ h => by cases h) (fun _ h => by cases h) hmask hserved
        rw [hstop]
        refine (Board.passStop_seeks (hend.trans (Board.enginePassEnd_again (b := noted.setDrv d _) (full := false)
          hj hkind hx hst hpass hres false)) hoff hcyl).trans ?_
        rfl
      · intro r j hquiet ho hk hw hset hmask hoff hcyl hserved hj hkind hstep hfatal fill hops hkeep
        obtain ⟨-, -, hexam, -⟩ := hquiet
        refine expires ((Board.holdExpiry_write hdue hstart ho hk hw).trans ?_)
        let noted := s.board.holdNoted d .write id t
        have hend := Board.endPass_withdrawn (b := noted) (d := d) (y := x.limited) hops hkeep false hexam hset hmask
          hserved
        refine (Board.passStop_seeks (hend.trans (Board.enginePassEnd_abandoned (b := (noted.unfilled d).setDrv d _)
          hj hkind hstep hfatal false)) hoff hcyl).trans ?_
        rfl
      · exact expires (Board.holdExpiry_writing hdue hstart ho hk hw)
      · exact expires (Board.holdExpiry_restore hdue hstart ho)

end Sys2Proof.Machine
end

section
/-! PROOFS. CANCEL_JOB of a job of any kind and state, and CLEAR_STORE_LOG (O56). -/

namespace Sys2Proof.Machine

/-! ### What a cancelled job gives up (R82, R110, R112) -/

/-- A drive whose engine, where it serves the job of a serial, is asked to stop (R82). -/
def Drive.askedEnd (x : Drive) (n : Nat) : Drive :=
  let serves := x.da.served.any (·.serial = n)
  { x with da := { x.da with
      atBoundary := x.da.atBoundary || (serves && x.da.owner = .enginePass),
      abandon := x.da.abandon || (serves && x.da.owner = .enginePosition) } }

/-- The capture slots that a job's captures, slots aside and PREPARE images are in. -/
def Job.poolSlots (j : Job) : List Nat :=
  (j.sectors.flatMap fun r => r.caps.map (·.slot)) ++
    j.relay.flatMap fun r => r.aside.toList ++ (r.image.map (·.slot)).toList

/-- The board with a job gone and all it held FREE, its end asked of the drive that serves it (R110, R112). -/
def Board.cancelled (b : Board) (j : Job) : Board :=
  { b with
    drives := b.drives.set j.drive ((b.drv j.drive).askedEnd j.serial),
    ts := { b.ts with
      keep := b.ts.keep.filter fun p => ∀ q ∈ j.sectors, q.slot ≠ some p.1,
      pool := b.ts.pool.filter (· ∉ j.poolSlots) },
    su := { b.su with queue := b.su.queue.filter (·.1 ≠ j.serial) },
    re := { b.re with jobs := b.re.jobs.filter (·.serial ≠ j.serial) },
    exam := true,
    out := b.out ++ [⟨some j.drive, b.now, .jobDone j .cancelled⟩] }

section
variable {b : Board} {d : DriveNo} {j : Job} {n : Nat}

/-- A drive that does not serve the job in a pass or positioning goes on as it is. -/
theorem Drive.askedEnd_none {x : Drive} (h : x.da.served.any (·.serial = n) = false ∨
    (x.da.owner ≠ .enginePass ∧ x.da.owner ≠ .enginePosition)) : x.askedEnd n = x := by
  unfold Drive.askedEnd
  obtain h | ⟨hpass, hposition⟩ := h
  · simp [h]
  · simp [hpass, hposition]

theorem Drive.askedEnd_pass {x : Drive} (h : x.da.served.any (·.serial = n) = true) (ho : x.da.owner = .enginePass) :
    x.askedEnd n = { x with da := { x.da with atBoundary := true } } := by
  simp [Drive.askedEnd, h, ho]

theorem Drive.askedEnd_position {x : Drive} (h : x.da.served.any (·.serial = n) = true)
    (ho : x.da.owner = .enginePosition) : x.askedEnd n = { x with da := { x.da with abandon := true } } := by
  simp [Drive.askedEnd, h, ho]

theorem Board.askEnd_eq : b.askEnd d n = b.setDrv d ((b.drv d).askedEnd n) := by
  unfold Board.askEnd
  dsimp only
  split_ifs with hs
  · split
    · next ho => rw [Drive.askedEnd_pass hs ho]; rfl
    · next ho => rw [Drive.askedEnd_position hs ho]; rfl
    · next hpass hposition => rw [Drive.askedEnd_none (.inr ⟨hpass, hposition⟩), Board.setDrv_self]
  · rw [Drive.askedEnd_none (.inl (Bool.eq_false_iff.2 hs)), Board.setDrv_self]

theorem Board.capturing_none (h : ∀ e, (b.drv e).rc.buf0.state ≠ .writing ∧ (b.drv e).rc.buf1.state ≠ .writing)
    (slot : Nat) : b.capturing n slot = false := by
  refine List.any_eq_false.2 fun e _ => ?_
  obtain ⟨h0, h1⟩ := h e
  simp [CaptureBuffer.writesFor, h0, h1]

theorem Board.freeCaptures_free (hops : b.ts.ops = [])
    (hbuf : ∀ e, (b.drv e).rc.buf0.state ≠ .writing ∧ (b.drv e).rc.buf1.state ≠ .writing) :
    b.freeCaptures j = { b with ts := { b.ts with pool := b.ts.pool.filter (· ∉ j.poolSlots) } } := by
  have hcopies (slot : Nat) : b.ts.copies slot = false := by
    unfold Store.copies
    rw [hops]
    rfl
  unfold Board.freeCaptures
  dsimp only
  rw [List.filter_congr fun slot _ => ?_]
  rw [hcopies, Board.capturing_none hbuf, Bool.or_false, Bool.or_false, Bool.eq_iff_iff]
  simp [Job.poolSlots]

/-- The board with a job's end noted and asked of the drive that serves it, and its solves gone (R112). -/
def Board.noted (b : Board) (j : Job) (o : Outcome) : Board :=
  ((b.note (some j.drive) (.jobDone j o)).setDrv j.drive ((b.drv j.drive).askedEnd j.serial)).unqueueJob j.serial

/-- Such a board with what the job held FREE and the job off the table. -/
def Board.without (b : Board) (j : Job) : Board :=
  let c := (b.freeCaptures j).freeReservations j
  { c with re := { c.re with jobs := c.re.jobs.filter (·.serial ≠ j.serial) }, exam := true }

/-- The steps of a finish that changes no entry, with no solve of the job in flight (R112). -/
theorem Board.finishCore_steps {o : Outcome} (hj : b.job j.serial = some j) (ho : o = .cancelled ∨ j.kind = .survey)
    (hflight : ∀ f, b.su.flight = some f → f.job ≠ j.serial) :
    b.finishCore j.serial o =
      let c := (b.noted j o).without j
      if j.kind = .relay ∧ o ≠ .complete ∧ j.written then
        c.addReport j.track (o.relayMask (c.drv j.drive).profile.sectors) .relay
      else c := by
  have hsolve : (b.noted j o).noSolve j.serial := ⟨fun q hq => by simpa using (List.mem_filter.1 hq).2, hflight⟩
  have hnoted : (((b.note (some j.drive) (.jobDone j o)).askEnd j.drive j.serial).unqueueJob j.serial).discardSolve
      j.serial = b.noted j o := by
    rw [Board.askEnd_eq]
    exact Board.discardSolve_none hsolve
  have hjob : (b.noted j o).job j.serial = some j := hj
  unfold Board.finishCore
  obtain rfl | hk := ho
  · cases hk : j.kind
    all_goals
      simp only [hj, hk]
      rw [hnoted, hjob]
      rfl
  · simp only [hj, hk]
    rw [hnoted, hjob]
    rfl

/-- A job's finish CANCELLED with no store operation, capture write or diversion (R110, R112). -/
theorem Board.noted_without_cancelled (hops : b.ts.ops = [])
    (hbuf : ∀ e, (b.drv e).rc.buf0.state ≠ .writing ∧ (b.drv e).rc.buf1.state ≠ .writing)
    (hdiv : ∀ e, (b.drv e).lp.diversion = none) : (b.noted j .cancelled).without j = b.cancelled j := by
  have hbufs (e : DriveNo) : ((b.noted j .cancelled).drv e).rc.buf0.state ≠ .writing ∧
      ((b.noted j .cancelled).drv e).rc.buf1.state ≠ .writing :=
    Board.setDrv_forall (b := b) (y := (b.drv j.drive).askedEnd j.serial)
      (P := fun y => y.rc.buf0.state ≠ .writing ∧ y.rc.buf1.state ≠ .writing) hbuf (hbuf j.drive) e
  have hdivs (e : DriveNo) : ((b.noted j .cancelled).drv e).lp.diversion = none :=
    Board.setDrv_forall (b := b) (y := (b.drv j.drive).askedEnd j.serial)
      (P := fun y => y.lp.diversion = none) hdiv (hdiv j.drive) e
  unfold Board.without
  dsimp only
  rw [Board.freeCaptures_free (b := b.noted j .cancelled) hops hbufs]
  rw [Board.freeReservations_free (c := j)]
  · rfl
  · exact hops
  · exact hdivs

/-- A report of a track with no job, not listed, while the list has room: it is listed (R102). -/
theorem Board.addReport_new {t : Track} {mask : SectorSet} {src : Source} (ht : b.trackJob t = none)
    (hl : ∀ y ∈ b.re.suspects, y.track ≠ t) (hn : b.re.suspects.length < 64) :
    b.addReport t mask src =
      let x : Suspect := { track := t, mask := mask, count := 1, first := b.now, last := b.now, source := src }
      { b with re := { b.re with suspects := b.re.suspects ++ [x] }, exam := true,
               out := b.out ++ [⟨some t.drive, b.now, .suspectAdded x⟩] } := by
  have hlisted : b.re.suspects.any (·.track = t) = false :=
    List.any_eq_false.2 fun y hy => by simpa using hl y hy
  unfold Board.addReport
  rw [ht]
  dsimp only
  rw [if_neg (by rw [hlisted]; decide), if_pos hn]
  rfl

end

/-- Settles O56: the finish leaves `Board.cancelled`, with the report of a written RELAY's track after it. -/
theorem cancelAndClear : Obligations.CancelAndClear := by
  unfold Obligations.CancelAndClear
  refine fun s => ⟨fun id hid => ⟨fun hnone => ?_, fun j hj hjob hauto hflight hops hquiet => ?_⟩, fun hin => ?_⟩
  · refine answers_of_reply (f := Board.cancelJob) rfl hid ?_
    unfold Board.cancelJob
    rw [show s.board.jobById (u8 [id] 0) = none from hnone]
    rfl
  · intro now x served own ended
    obtain ⟨hbuf0, hothers⟩ := forall_and.1 hquiet
    obtain ⟨hbuf1, hdiv⟩ := forall_and.1 hothers
    have hcore := Board.finishCore_steps (b := s.board.ok []) (o := .cancelled) hjob (.inl rfl) hflight
    rw [Board.noted_without_cancelled (b := s.board.ok []) hops (fun e => ⟨hbuf0 e, hbuf1 e⟩) hdiv] at hcore
    have hfinish (c : Board) (hc : (s.board.ok []).finishCore j.serial .cancelled = c) (ha : c.noAuto) :
        s.board.cancelJob [id] = { c with exam := false } := by
      unfold Board.cancelJob
      rw [show s.board.jobById (u8 [id] 0) = some j from hj]
      dsimp only
      unfold Board.finish
      rw [hc, Board.examine_noAuto ha]
    have hasked : x.da.served.any (·.serial = j.serial) = true ↔ served := by
      simp [served, Option.any_eq_true]
    refine ⟨fun hrelay => ?_, fun hk hw hs htrack hlisted hroom hsectors => ?_⟩
    · have hended : ended (x.askedEnd j.serial) [] [] := by
        have hcancel := hfinish _ (hcore.trans (if_neg fun h => by rw [hrelay h.1] at h; cases h.2.2)) hauto
        refine answers_of_reply (f := Board.cancelJob) rfl hid (hcancel.trans ?_)
        rw [List.append_nil]
        rfl
      refine ⟨fun h => ?_, fun hs ho => ?_, fun hs ho => ?_⟩
      · rwa [Drive.askedEnd_none (h.imp_left fun hn => Bool.eq_false_iff.2 (mt hasked.1 hn))] at hended
      · rwa [Drive.askedEnd_pass (hasked.2 hs) ho] at hended
      · rwa [Drive.askedEnd_position (hasked.2 hs) ho] at hended
    · intro entry
      have hfree : ((s.board.ok []).cancelled j).trackJob j.track = none := by
        refine List.find?_eq_none.2 fun i hi => ?_
        obtain ⟨hi, hne⟩ := List.mem_filter.1 hi
        rw [htrack i hi (by simpa using hne)]
        decide
      have hx : ((s.board.ok []).drv j.drive).askedEnd j.serial = x :=
        Drive.askedEnd_none (.inl (Bool.eq_false_iff.2 (mt hasked.1 hs)))
      have hmask : Outcome.cancelled.relayMask (((s.board.ok []).cancelled j).drv j.drive).profile.sectors =
          sectorSet (List.range x.profile.sectors) := by
        rw [show ((s.board.ok []).cancelled j).drv j.drive = x from (Quad.get_set_same _ _ _).trans hx]
        exact congrArg (fun n => sectorSet (List.range n)) (min_eq_left hsectors)
      rw [if_pos ⟨hk, nofun, hw⟩, hmask, Board.addReport_new hfree hlisted hroom] at hcore
      refine answers_of_reply (f := Board.cancelJob) rfl hid ((hfinish _ hcore hauto).trans ?_)
      unfold Board.cancelled
      rw [hx, List.append_cons s.board.out]
      rfl
  · exact answers_of_reply (f := Board.clearStoreLog) rfl hin rfl

end Sys2Proof.Machine
end

section
/-! PROOFS. FILE_JOB of a SURVEY with its refusals, and the end of its pass (O55). -/

namespace Sys2Proof.Machine

/-! ### The id a filing is given (R90) -/

theorem nextId_range (n : Nat) : 1 ≤ nextId n ∧ nextId n ≤ 255 := by
  unfold nextId
  split <;> omega

/-- The search takes a step from each live id that it meets. -/
theorem nextJobId_after (live : List Nat) (fuel n : Nat) :
    ∃ k, nextJobId live (fuel + 1) n = nextId^[k + 1] n ∧ ∀ m, 1 ≤ m → m ≤ k → nextId^[m] n ∈ live := by
  induction fuel generalizing n with
  | zero =>
    refine ⟨0, ?_, fun m h1 h2 => by omega⟩
    rw [nextJobId_eq]
    exact ite_self _
  | succ fuel ih =>
    rw [nextJobId_eq]
    split
    · next hlive =>
      obtain ⟨k, he, hk⟩ := ih (nextId n)
      refine ⟨k + 1, he, fun m h1 h2 => ?_⟩
      obtain ⟨m, rfl⟩ := Nat.exists_eq_succ_of_ne_zero (by omega : m ≠ 0)
      rw [Function.iterate_succ_apply]
      cases m with
      | zero => simpa using hlive
      | succ m => exact hk _ (by omega) (by omega)
    · exact ⟨0, rfl, fun m h1 h2 => by omega⟩

theorem Board.givesId_next {b : Board} (h : b.re.jobs.length < 8) :
    b.givesId (nextJobId (b.re.jobs.map (·.id)) 255 b.re.lastId) :=
  ⟨nextJobId_not_mem (by rw [List.length_map]; omega) _, nextJobId_after _ 254 _⟩

theorem Board.givesId_range {b : Board} {id : Nat} (h : b.givesId id) : 1 ≤ id ∧ id ≤ 255 := by
  obtain ⟨-, k, rfl, -⟩ := h
  rw [Function.iterate_succ_apply']
  exact nextId_range _

/-! ### The filing of a SURVEY (R91, R92, R169) -/

section
variable {p : List Byte} {b : Board} {r : FileReq} {adjusted : Bool}

theorem readFile_survey (h : u8 p 0 = 2) :
    readFile p =
      match readDrive p 1 with
      | some d =>
        if u16 p 2 ≤ 511 ∧ u16 p 5 ≤ 511 then
          some ({ kind := .survey, drive := d, cyl := Fin.ofNat 512 (u16 p 2), head := 0,
                  endCyl := Fin.ofNat 512 (u16 p 5), target := 0, accept := .b, repeats := 1, retain := false }, false)
        else none
      | none => none := by
  unfold readFile
  rw [h]
  rfl

theorem readFile_kindless (h : 2 < u8 p 0) : readFile p = none := by
  unfold readFile
  split
  · omega
  · omega
  · omega
  · rfl

theorem readFile_survey_kind (h : 2 ≤ u8 p 0) (hr : readFile p = some (r, adjusted)) : r.kind = .survey := by
  obtain h | h := Nat.lt_or_eq_of_le h
  · rw [readFile_kindless h] at hr
    cases hr
  · rw [readFile_survey h.symm] at hr
    split at hr
    · split_ifs at hr
      cases hr
      rfl
    · cases hr

/-- A SURVEY is not held up by a write gate, nor refused for the store's being made ready (R35, R91). -/
theorem Board.fileJob_survey (h : 2 ≤ u8 p 0) :
    b.fileJob p =
      match readFile p with
      | none => b.deny .range
      | some (r, adjusted) =>
        match b.fileCheck r with
        | some st => b.deny st
        | none => ((b.placeJob r).1.reply .ok adjusted
            [byteOf (b.placeJob r).2.id, byteOf (b.placeJob r).2.repeats]).finishAtOnce (b.placeJob r).2 := by
  have hnow : b.fileJob p = b.fileNow p := by
    unfold Board.fileJob
    split
    · next r adjusted hr => exact if_neg fun hk => hk.1 (readFile_survey_kind h hr)
    · rfl
  rw [hnow]
  unfold Board.fileNow
  exact if_neg fun hu => by omega

theorem Board.fileCheck_survey (hk : r.kind = .survey) :
    b.fileCheck r =
      let pr := (b.drv r.drive).profile
      if ¬ (r.cyl.val < pr.cylinders ∧ r.endCyl.val < pr.cylinders ∧ r.cyl ≤ r.endCyl) then some .range
      else if ∃ j ∈ b.re.jobs, j.kind = .survey ∧ j.drive = r.drive then some .conflict
      else if 8 ≤ b.re.jobs.length then some .noRoom
      else none := by
  unfold Board.fileCheck
  simp only [hk, List.any_eq_true, Bool.and_eq_true, decide_eq_true_eq]

theorem Board.placeJob_survey (hk : r.kind = .survey) :
    b.placeJob r =
      let id := nextJobId (b.re.jobs.map (·.id)) 255 b.re.lastId
      let j := r.job b id [] []
      ({ b with re := { b.re with
          jobs := b.re.jobs ++ [j], lastId := id, nextSerial := b.re.nextSerial + 1 } }, j) := by
  unfold Board.placeJob FileReq.job
  simp only [hk, if_true]
  unfold Board.prepareCheck
  rfl

theorem Board.finishAtOnce_survey {j : Job} (hk : j.kind = .survey) (hl : (b.drv j.drive).da.lost = false) :
    b.finishAtOnce j = b := by
  unfold Board.finishAtOnce
  rw [if_neg (fun h => by cases hk.symm.trans h.1), if_neg (by rw [hl]; decide)]

end

/-! ### A job that an examination finds goes on as it is (R103) -/

section
variable {b : Board} {n m : Nat} {i j : Job}

theorem Board.letGo_re (slot : Nat) : (b.letGo slot).re = b.re := by
  unfold Board.letGo
  repeat' split
  all_goals rfl

theorem Board.freeReservations_re : (b.freeReservations j).re = b.re := by
  unfold Board.freeReservations
  generalize j.sectors = rs
  induction rs generalizing b with
  | nil => rfl
  | cons q rs ih =>
    rw [List.foldl_cons, ih]
    split
    · exact Board.letGo_re _
    · rfl

theorem Board.modJob_job_other (f : Job → Job) (hn : n ≠ m) (hf : ∀ i, (f i).serial = i.serial) :
    (b.modJob m f).job n = b.job n := by
  unfold Board.job Board.modJob
  dsimp only
  induction b.re.jobs with
  | nil => rfl
  | cons i is ih =>
    by_cases hi : i.serial = m
    · have hne : i.serial ≠ n := fun h => hn (h.symm.trans hi)
      rw [List.map_cons, if_pos hi, List.find?_cons_of_neg (by simpa [hf] using hne),
        List.find?_cons_of_neg (by simpa using hne), ih]
    · rw [List.map_cons, if_neg hi, List.find?_cons, List.find?_cons, ih]

theorem Board.discardSolve_job (hn : n ≠ m) : (b.discardSolve m).job n = b.job n := by
  unfold Board.discardSolve
  split
  · next f hf =>
    split
    · next hm =>
      split
      · unfold Board.endSolve
        rw [hf]
        exact Board.modJob_job_other (b := b.dropOps fun op => op.kind = .solveRead) _ (hm ▸ hn) fun _ => rfl
      · rfl
    · rfl
  · rfl

/-- A SALVAGE's finish COMPLETE leaves every other job (R112). -/
theorem Board.finishCore_job (hi : b.job m = some i) (hk : i.kind = .salvage) (hn : n ≠ m) :
    (b.finishCore m .complete).job n = b.job n := by
  let asked := ((b.note (some i.drive) (.jobDone i .complete)).askEnd i.drive m).unqueueJob m
  have hasked : asked.job n = b.job n := by
    simp only [asked, Board.askEnd_eq]
    rfl
  have hfreed (c : Board) (k : Job) :
      ((c.freeCaptures k).freeReservations k).re.jobs.find? (·.serial = n) = c.job n := by
    rw [Board.freeReservations_re]
    rfl
  have hgone (l : List Job) : (l.filter (·.serial ≠ m)).find? (·.serial = n) = l.find? (·.serial = n) := by
    rw [List.find?_filter]
    refine congrArg (fun q => List.find? q l) (funext fun k => ?_)
    by_cases hk : k.serial = n <;> simp [hk, hn]
  unfold Board.finishCore
  simp only [hi, hk]
  rw [if_neg (fun h => by cases h.1)]
  calc _ = (asked.discardSolve m).job n := (hgone _).trans (hfreed _ _)
    _ = b.job n := (Board.discardSolve_job hn).trans hasked

/-- A filing adds a job under a serial not yet given, and leaves the others (R90). -/
theorem Board.placeJob_jobs (b : Board) (r : FileReq) :
    (b.placeJob r).1.re.jobs = b.re.jobs ++ [(b.placeJob r).2] ∧ (b.placeJob r).2.serial = b.re.nextSerial ∧
      (b.placeJob r).2.kind = r.kind ∧ (b.placeJob r).2.drive = r.drive := by
  have same (c : Board) (k : Job) : (c.prepareCheck k).serial = k.serial ∧ (c.prepareCheck k).kind = k.kind ∧
      (c.prepareCheck k).drive = k.drive := by
    obtain ⟨⟨-, hserial, hkind, hdrive, -⟩, -⟩ := c.prepareCheck_same k
    exact ⟨hserial, hkind, hdrive⟩
  unfold Board.placeJob
  dsimp only
  split
  · exact ⟨congrArg (fun re : Engine => re.jobs ++ _) (Board.reserveSectors_re _ _ _), same _ _⟩
  · exact ⟨rfl, same _ _⟩

/-- A job that may be filed at the examination keeps clear of every job of the table (R90, R103). -/
theorem Board.tryEntry_job (h : b.re.lawful) (hj : b.job n = some j) {x : Suspect}
    (hl : (b.drv x.track.drive).da.lost = false) : (b.tryEntry x).job n = some j := by
  obtain ⟨-, -, hserials, -⟩ := h
  obtain ⟨hmem, hn⟩ := Board.job_mem hj
  have hold : n ≠ b.re.nextSerial := hn ▸ (hserials j hmem).ne
  unfold Board.tryEntry
  extract_lets p r
  split_ifs
  · exact hj
  · exact hj
  · obtain ⟨hjobs, hserial, hkind, hdrive⟩ := b.placeJob_jobs r
    generalize hplaced : b.placeJob r = placed at *
    obtain ⟨c, i⟩ := placed
    dsimp only at hjobs hserial hkind hdrive ⊢
    have hfiled : c.job n = some j := by
      unfold Board.job at hj ⊢
      rw [hjobs, List.find?_append, hj]
      rfl
    have hnew : c.job i.serial = some i := by
      have hnone : b.re.jobs.find? (·.serial = i.serial) = none :=
        List.find?_eq_none.2 fun k hk => by simpa [hserial] using (hserials k hk).ne
      unfold Board.job
      rw [hjobs, List.find?_append, hnone]
      simp
    have hpresent : ((c.note (some i.drive) (.suspectFiled x i.id)).drv i.drive).da.lost = false := by
      obtain ⟨-, hkept⟩ := Board.placeJob_kept b.kept_refl r
      rw [hplaced] at hkept
      obtain ⟨⟨_, _, _, _, _, _, _, _, hy⟩, -⟩ := hkept i.drive
      exact (congrArg (fun y : Drive => y.da.lost) hy).trans (hdrive ▸ hl)
    unfold Board.finishAtOnce
    split_ifs with hdone hlost
    · exact (Board.finishCore_job (b := c.note _ _) hnew hkind (hserial ▸ hold)).trans hfiled
    · rw [hpresent] at hlost
      cases hlost
    · exact hfiled

/-- The board after a step of an examination that had a job in its table. -/
def Board.stillHas (b : Board) (n : Nat) (j : Job) : Prop := b.keeps False False True ∧ b.job n = some j

theorem Board.stillHas.tryEntry (h : b.stillHas n j) {x : Suspect}
    (hl : (b.drv x.track.drive).da.lost = false) : (b.tryEntry x).stillHas n j := by
  obtain ⟨hkeeps, hj⟩ := h
  exact ⟨hkeeps.tryEntry, Board.tryEntry_job (hkeeps.2.2 trivial) hj hl⟩

theorem Board.stillHas.tryEntries {d : DriveNo} (h : b.stillHas n j) (hl : (b.drv d).da.lost = false)
    {l : List Suspect} (hd : ∀ x ∈ l, x.track.drive = d) : (l.foldl Board.tryEntry b).stillHas n j := by
  induction l generalizing b with
  | nil => exact h
  | cons x l ih =>
    obtain ⟨hx, hrest⟩ := List.forall_mem_cons.1 hd
    refine ih (h.tryEntry (hx ▸ hl)) ?_ hrest
    obtain ⟨-, hkept⟩ := Board.tryEntry_kept b.kept_refl x
    obtain ⟨⟨_, _, _, _, _, _, _, _, hy⟩, -⟩ := hkept d
    exact (congrArg (fun y : Drive => y.da.lost) hy).trans hl

theorem Board.stillHas.walkSuspects (h : b.stillHas n j) : b.walkSuspects.stillHas n j := by
  unfold Board.walkSuspects
  generalize ([0, 1, 2, 3] : List DriveNo) = ds
  induction ds generalizing b with
  | nil => exact h
  | cons d ds ih =>
    rw [List.foldl_cons]
    refine ih ?_
    split
    · next hauto =>
      refine h.tryEntries (d := d) (by simpa using (Bool.and_eq_true_iff.1 hauto).2) fun x hx => ?_
      simpa using (List.mem_filter.1 hx).2
    · exact h

theorem Board.stillHas.examineFor (h : b.stillHas n j) (fuel : Nat) : (b.examineFor fuel).stillHas n j := by
  induction fuel generalizing b with
  | zero => exact h
  | succ fuel ih =>
    unfold Board.examineFor
    split
    · exact ih (Board.stillHas.walkSuspects h)
    · exact h

/-- An examination leaves each job that was in the table before it (R90, R103). -/
theorem Board.examine_job (h : b.re.lawful) (hj : b.job n = some j) : b.examine.job n = some j := by
  obtain ⟨-, hjob⟩ := Board.stillHas.examineFor ⟨⟨nofun, nofun, fun _ => h⟩, hj⟩ (b.re.suspects.length + 2)
  exact hjob

end

/-! ### The end of a SURVEY's pass (R79, R80, R104) -/

section
variable {b : Board} {d : DriveNo} {n : Nat} {c j : Job}

/-- The track that a drive's pass is made on. -/
def Drive.passTrack (x : Drive) (d : DriveNo) : Track :=
  { drive := d, cyl := Fin.ofNat 512 x.da.plan.cyl, head := Fin.ofNat 4 x.da.plan.head }

/-- The failures of a drive's SURVEY pass as the suspect list takes them (R102, R104). -/
def Drive.surveySuspect (x : Drive) (d : DriveNo) (now : Time) : Suspect :=
  { track := x.passTrack d, mask := x.da.surveyMask, count := 1, first := now, last := now, source := .survey }

/-- The board with that entry listed and its examination still to be made (R102, R103). -/
def Board.surveyListed (b : Board) (d : DriveNo) : Board :=
  let entry := (b.drv d).surveySuspect d b.now
  { b with exam := true, re := { b.re with suspects := b.re.suspects ++ [entry] },
           out := b.out ++ [⟨some d, b.now, .suspectAdded entry⟩] }

/-- The board with a SURVEY pass's failures, if any, reported and examined (R102, R103, R104). -/
def Board.surveyReported (b : Board) (d : DriveNo) : Board :=
  if (b.drv d).da.surveyMask = 0 then b else (b.surveyListed d).examine

/-- The report of the failures, with the examination that the end of a pass asks for after it (R79, R104). -/
theorem Board.reportSurvey_examine (he : b.exam = false) (ht : b.trackJob ((b.drv d).passTrack d) = none)
    (hl : ∀ y ∈ b.re.suspects, y.track ≠ (b.drv d).passTrack d) (hn : b.re.suspects.length < 64) :
    (b.reportSurvey d).examine = b.surveyReported d := by
  unfold Board.surveyReported
  split_ifs with hm
  · rw [Board.reportSurvey_none hm, Board.examine_of_not_exam he]
  · unfold Board.reportSurvey Board.report
    dsimp only
    rw [if_neg hm, Board.examine_of_not_exam (Board.examine_exam _)]
    exact congrArg Board.examine (Board.addReport_new ht hl hn)

theorem Board.surveyReported_job (h : b.re.lawful) (hj : b.job n = some j)
    (ht : b.trackJob ((b.drv d).passTrack d) = none)
    (hl : ∀ y ∈ b.re.suspects, y.track ≠ (b.drv d).passTrack d) (hn : b.re.suspects.length < 64) :
    (b.surveyReported d).job n = some j := by
  unfold Board.surveyReported
  split_ifs
  · exact hj
  · have hkeeps : b.keeps False False True := ⟨nofun, nofun, fun _ => h⟩
    obtain ⟨-, -, hlisted⟩ := hkeeps.addReport (t := (b.drv d).passTrack d) (mask := (b.drv d).da.surveyMask)
      (src := .survey)
    rw [Board.addReport_new ht hl hn] at hlisted
    exact Board.examine_job (b := b.surveyListed d) (hlisted trivial) hj

theorem Board.surveyReported_kept : b.kept (b.surveyReported d) := by
  unfold Board.surveyReported
  split_ifs
  · exact b.kept_refl
  · exact (b.surveyListed d).examine_kept

theorem Board.surveyReported_noAuto (h : b.noAuto) :
    (b.surveyReported d).su = b.su ∧ (b.surveyReported d).noAuto := by
  unfold Board.surveyReported
  split_ifs
  · exact ⟨rfl, h⟩
  · rw [Board.examine_noAuto (b := b.surveyListed d) h]
    exact ⟨rfl, h⟩

/-- A pulse that ends a pass, the failures it met reported before the engine is told (R79, R104). -/
theorem Board.sectorPulse_reports {r : JobRef} (wp : Bool) (h : (b.drv d).passCloses) (hw : b.noWriteFill d)
    (hr : (b.drv d).da.served = some r) :
    b.sectorPulse d wp =
      let c := ((b.setDrv d ((b.drv d).passPulsed wp)).reportSurvey d).examine
      ((c.setDrv d (c.drv d).passLeft).enginePassEnd r.serial (b.drv d).passFull
        ((b.drv d).da.surveyMask ≠ 0)).decide d := by
  obtain ⟨hp, hp', hi, ho, hs, hends, hset, hlive⟩ := h
  have hpass : (b.drv d).passEnds = true := by
    unfold Drive.passEnds
    obtain h | h := hends <;> simp [ho, h]
  rw [Board.sectorPulse_closed wp hi hp]
  simp only [hpass, Bool.not_true, Bool.and_false, Bool.false_eq_true, if_false, if_true, hs]
  rw [Board.openSlot_none (by rw [Board.setDrv_drv]; exact hp')]
  unfold Board.passEnd Board.endPass
  rw [Board.withdraw_acted (y := (b.drv d).pulsed wp) hset hlive, Board.dropWriteFill_none hw, Board.setDrv_drv]
  have hserved : ((b.drv d).pulsed wp).da.served = some r := hr
  dsimp only
  split
  · next q hq =>
    cases hserved.symm.trans hq
    rfl
  · next hq => cases hserved.symm.trans hq

/-- A SURVEY whose pass has ended, moved on after a full one (R104). -/
def Job.surveyed (j : Job) (full found : Bool) (heads : Nat) : Job :=
  if full then (j.counted full).nextSurveyTrack heads found else j.counted full

theorem Job.surveyed_full (found : Bool) (heads : Nat) :
    j.surveyed true found heads =
      { j.counted true with
        tracksFound := if found then min 2048 (j.tracksFound + 1) else j.tracksFound,
        curCyl := if j.curHead + 1 < heads then j.curCyl else j.curCyl + 1,
        curHead := if j.curHead + 1 < heads then j.curHead + 1 else 0 } := by
  have htrack : nextTrack heads j.curCyl j.curHead =
      (if j.curHead + 1 < heads then j.curCyl else j.curCyl + 1,
        if j.curHead + 1 < heads then j.curHead + 1 else 0) := by
    unfold nextTrack
    split_ifs <;> rfl
  unfold Job.surveyed Job.nextSurveyTrack
  rw [if_pos rfl, show nextTrack heads (j.counted true).curCyl (j.counted true).curHead = _ from htrack]
  rfl

theorem Job.surveyed_same (full found : Bool) (heads : Nat) :
    (j.surveyed full found heads).serial = j.serial ∧ (j.surveyed full found heads).kind = j.kind ∧
      (j.surveyed full found heads).drive = j.drive ∧ (j.surveyed full found heads).endCyl = j.endCyl ∧
      (j.surveyed full found heads).sectors = j.sectors ∧ (j.surveyed full found heads).relay = j.relay := by
  unfold Job.surveyed
  split_ifs <;> exact ⟨rfl, rfl, rfl, rfl, rfl, rfl⟩

/-- The end of a SURVEY's pass for its job: on past the end cylinder it finishes, else it waits (R104). -/
theorem Board.enginePassEnd_survey {i : Job} {full found : Bool} (hj : b.job n = some j) (hk : j.kind = .survey)
    (hi : i = j.surveyed full found (b.drv j.drive).profile.heads) :
    b.enginePassEnd n full found =
      if i.curCyl ≤ j.endCyl.val then b.putJob n (i.waits b.now) else (b.putJob n i).finish n .complete := by
  obtain ⟨-, hn⟩ := Board.job_mem hj
  obtain ⟨hserial, hkind, -, hend, -⟩ := Job.surveyed_same (j := j) full found (b.drv j.drive).profile.heads
  rw [← hi] at hserial hkind hend
  have hput : (b.putJob n i).job n = some i := Board.putJob_job (hserial.trans hn) hj
  have hneeds : i.needsPass = true ↔ i.curCyl ≤ j.endCyl.val := by
    rw [Job.needsPass_survey (hkind.trans hk), hend]
  have hended : b.enginePassEnd n full found = (b.putJob n (j.counted full)).surveyEnd (j.counted full) full found := by
    unfold Board.enginePassEnd
    rw [hj]
    dsimp only
    split
    · next h => cases hk.symm.trans h
    · rfl
    · next h => cases hk.symm.trans h
  have hmoved : (if full then (b.putJob n (j.counted full)).modJob n fun q =>
      q.nextSurveyTrack ((b.putJob n (j.counted full)).drv q.drive).profile.heads found
      else b.putJob n (j.counted full)) = b.putJob n i := by
    rw [hi]
    unfold Job.surveyed
    split_ifs
    · exact Board.putJob_modJob (c := j.counted full) hn _
    · rfl
  rw [hended]
  unfold Board.surveyEnd
  rw [show (j.counted full).serial = n from hn]
  dsimp only
  rw [hmoved, hput]
  dsimp only
  rw [hserial.trans hn, Board.putJob_rewait (hserial.trans hn)]
  exact if_congr hneeds rfl rfl

/-- A SURVEY that finishes COMPLETE in its pass (R104, R112). -/
theorem Board.finish_survey {y : Drive} {r : JobRef} (hj : b.job n = some j) (hc : c.serial = n)
    (hk : c.kind = .survey) (hd : c.drive = d) (hs : c.sectors = []) (hrel : c.relay = [])
    (hserved : y.da.served = some r) (hr : r.serial = n) (ho : y.da.owner = .enginePass) (hsolve : b.noSolve n)
    (hauto : b.noAuto) :
    ((b.setDrv d y).putJob n c).finish n .complete =
      Board.setDrv { b with
        exam := false,
        out := b.out ++ [⟨some d, b.now, .jobDone c .complete⟩],
        re := { b.re with jobs := b.re.jobs.filter (·.serial ≠ n) } } d
        { y with da := { y.da with atBoundary := true } } := by
  subst hc hd
  let put := (b.setDrv c.drive y).putJob c.serial c
  let asked := (put.note (some c.drive) (.jobDone c .complete)).setDrv c.drive
    { y with da := { y.da with atBoundary := true } }
  have hput : put.drv c.drive = y := Board.setDrv_drv _ _ _
  have hnoted : put.noted c .complete = asked := by
    unfold Board.noted
    rw [hput, Drive.askedEnd_pass (by rw [hserved]; simpa using hr) ho]
    exact Board.unqueueJob_none (b := asked) hsolve
  have hwithout : asked.without c =
      { asked with re := { asked.re with jobs := asked.re.jobs.filter (·.serial ≠ c.serial) }, exam := true } := by
    unfold Board.without Board.freeReservations
    rw [Board.freeCaptures_none (by rw [hs]; nofun) hrel, hs]
    rfl
  obtain ⟨-, hflight⟩ := hsolve
  unfold Board.finish
  rw [Board.finishCore_steps (b := put) (Board.putJob_job rfl hj) (.inr hk) hflight]
  dsimp only
  rw [hnoted, hwithout, if_neg (fun h => by cases hk.symm.trans h.1), Board.examine_noAuto (by exact hauto)]
  let done (jobs : List Job) : Board := { b with
    exam := false,
    out := b.out ++ [⟨some c.drive, b.now, .jobDone c .complete⟩],
    re := { b.re with jobs := jobs } }
  exact (Board.setDrv_setDrv (done _) c.drive y _).trans
    (congrArg (fun l => (done l).setDrv c.drive { y with da := { y.da with atBoundary := true } })
      (filter_replaced _ rfl))

/-- A drive that an examination has changed handed back after its pass (R80, R84). -/
theorem Board.decide_kept {x y : Drive} (h : x.passOver) {wp : Bool} (hy : (x.passPulsed wp).kept y)
    (atBoundary : Bool) :
    (b.setDrv d { y.passLeft with da := { y.passLeft.da with atBoundary := atBoundary } }).decide d =
      b.setDrv d (y.handedBack b.now) := by
  obtain ⟨⟨_, _, _, _, _, _, _, _, rfl⟩, -⟩ := hy
  obtain ⟨-, hheld, hh, hl, hoff, hcyl⟩ := h
  have hdoubt : (x.passPulsed wp).rt.doubt = x.rt.doubt := Tracker.advance_doubt _ _
  exact Board.decide_handsBack (y := { Drive.passLeft _ with da := { (Drive.passLeft _).da with atBoundary := _ } })
    hheld hh (hl.imp_right fun h => ⟨h.1, hdoubt.trans h.2⟩) hoff hcyl rfl

end

/-- Settles O55: the payload by `readFile`'s branch for a SURVEY, the filing by `fileCheck` and `placeJob`, and the end
of the pass by `enginePassEnd_survey` on the board that the report of the failures leaves. -/
theorem fileSurvey : Obligations.FileSurvey := by
  unfold Obligations.FileSurvey
  refine ⟨fun p => ?_, fun p s hin hu => ?_, fun d wp r j s => ?_⟩
  · intro byte pair
    refine ⟨?_, fun d first last hkind hd hfirst hlast => ?_⟩
    · rintro (hkind | ⟨hkind, hbad⟩)
      · exact readFile_kindless hkind
      · rw [readFile_survey hkind]
        by_cases hdrive : 3 < byte 1
        · rw [readDrive_none hdrive]
        · rw [readDrive_some (d := ⟨byte 1, by omega⟩) rfl]
          exact if_neg fun h => by
            simp only [u16_eq] at h
            exact hbad.elim hdrive fun hc => by simp only [pair, byte] at hc; omega
    · have hcyls : u16 p 2 = first.val ∧ u16 p 5 = last.val :=
        ⟨(u16_eq p 2).trans hfirst, (u16_eq p 5).trans hlast⟩
      rw [readFile_survey hkind, readDrive_some hd, hcyls.1, hcyls.2]
      dsimp only
      rw [if_pos (by omega), Fin.ofNat_val_eq_self, Fin.ofNat_val_eq_self]
  · have hfile := Board.fileJob_survey (b := s.board) hu
    refine ⟨fun hnone => answers_of_reply (f := Board.fileJob) rfl hin ?_, fun r adjusted hread hlost => ?_⟩
    · rw [hfile, hnone]
      rfl
    · intro pr inRange second
      have hk := readFile_survey_kind hu hread
      have hcheck := Board.fileCheck_survey (b := s.board) hk
      rw [hread] at hfile
      have denied (st : Status) (h : s.board.fileCheck r = some st) : Answers .fileJob s s.board st false [] :=
        answers_of_reply (f := Board.fileJob) rfl hin (by rw [hfile]; simp only [h]; rfl)
      refine ⟨fun hr => denied .range ?_, fun hr hs => denied .conflict ?_, fun hr hs hroom => denied .noRoom ?_,
        fun hr hs hroom => ?_⟩
      · exact hcheck.trans (if_pos hr)
      · exact hcheck.trans ((if_neg (not_not_intro hr)).trans (if_pos hs))
      · exact hcheck.trans ((if_neg (not_not_intro hr)).trans ((if_neg hs).trans (if_pos hroom)))
      · have hnone : s.board.fileCheck r = none :=
          hcheck.trans ((if_neg (not_not_intro hr)).trans ((if_neg hs).trans (if_neg (by omega))))
        have hgives := Board.givesId_next hroom
        obtain ⟨h1, h255⟩ := Board.givesId_range hgives
        refine ⟨_, hgives, h1, h255, answers_of_reply (f := Board.fileJob) rfl hin ?_⟩
        rw [hfile]
        simp only [hnone]
        rw [Board.finishAtOnce_survey, Board.placeJob_survey hk]
        · rfl
        · rw [Board.placeJob_survey hk]
          exact hk
        · rw [Board.placeJob_survey hk]
          exact hlost
  · intro x now heads mask track full entry pulsed b hquiet hlaw hover hfill hserved hj hk hd htrack hlisted hroom
      counted moved ended
    obtain ⟨hout, -, hexam, -⟩ := hquiet
    obtain ⟨hcloses, -⟩ := id hover
    obtain ⟨-, -, -, howner, -⟩ := id hcloses
    have hdrv : pulsed.drv d = x.passPulsed wp := Board.setDrv_drv _ _ _
    have htrk : (pulsed.drv d).passTrack d = track := by
      rw [hdrv]
      rfl
    have hreported : pulsed.surveyReported d = b := by
      unfold Board.surveyReported Board.surveyListed
      rw [hdrv, show pulsed.out = [] from hout]
      rfl
    have hexamined : (pulsed.reportSurvey d).examine = b :=
      (Board.reportSurvey_examine (b := pulsed) hexam (htrk ▸ htrack) (htrk ▸ hlisted) hroom).trans hreported
    have hbj : b.job r.serial = some j :=
      hreported ▸ Board.surveyReported_job (b := pulsed) hlaw hj (htrk ▸ htrack) (htrk ▸ hlisted) hroom
    obtain ⟨⟨hnow, -⟩, hdrives⟩ := hreported ▸ pulsed.surveyReported_kept (d := d)
    have hkept : (x.passPulsed wp).kept (b.drv d) := hdrv ▸ hdrives d
    have hleft : (b.drv d).passLeft.da.owner = .enginePass ∧ (b.drv d).passLeft.da.served = some r ∧
        (b.drv d).passLeft.profile = x.profile := by
      obtain ⟨⟨_, _, _, _, _, _, _, _, hy⟩, -⟩ := hkept
      rw [hy]
      exact ⟨howner, hserved, rfl⟩
    obtain ⟨hleftOwner, hleftServed, hleftProfile⟩ := hleft
    have hheads : (Board.drv (b.setDrv d (b.drv d).passLeft) j.drive).profile.heads = heads := by
      rw [hd, Board.setDrv_drv, hleftProfile]
    have hmoved : moved = j.surveyed x.passFull (mask ≠ 0)
        (Board.drv (b.setDrv d (b.drv d).passLeft) j.drive).profile.heads := by
      have hfull : x.passFull = Decidable.decide full := by
        unfold Drive.passFull
        rw [Bool.decide_and]
        cases x.da.missed <;> rfl
      rw [hheads, hfull]
      by_cases h : full
      · rw [decide_eq_true h, Job.surveyed_full]
        simp [moved, counted, Job.counted, satInc, h]
      · rw [decide_eq_false h]
        simp [moved, counted, Job.surveyed, Job.counted, satInc, h]
    have hpulse : s.board.sectorPulse d wp =
        (if moved.curCyl ≤ j.endCyl.val then
          (b.setDrv d (b.drv d).passLeft).putJob r.serial (moved.waits b.now)
        else ((b.setDrv d (b.drv d).passLeft).putJob r.serial moved).finish r.serial .complete).decide d := by
      rw [Board.sectorPulse_reports wp hcloses hfill hserved]
      dsimp only
      rw [show ((s.board.setDrv d ((s.board.drv d).passPulsed wp)).reportSurvey d).examine = b from hexamined]
      exact congrArg (Board.decide · d) (Board.enginePassEnd_survey (b := b.setDrv d _) hbj hk hmoved)
    obtain ⟨hserial, hkind, hdrive, -, hsectors, hrelay⟩ := Job.surveyed_same (j := j) x.passFull (mask ≠ 0)
      (Board.drv (b.setDrv d (b.drv d).passLeft) j.drive).profile.heads
    rw [← hmoved] at hserial hkind hdrive hsectors hrelay
    obtain ⟨-, hn⟩ := Board.job_mem hj
    refine ⟨fun hmore => completes_pulse (hpulse.trans ?_), fun hpast hsolve hauto hs hrel =>
      completes_pulse (hpulse.trans ?_)⟩
    · rw [if_pos hmore]
      refine (Board.decide_kept (b := b.putJob r.serial (moved.waits b.now)) hover hkept false).trans ?_
      rw [show (b.putJob r.serial (moved.waits b.now)).now = now from hnow, show b.now = now from hnow]
      rfl
    · obtain ⟨hsu, hbauto⟩ := hreported ▸ Board.surveyReported_noAuto (b := pulsed) (d := d) hauto
      have hbsolve : b.noSolve r.serial := by
        unfold Board.noSolve
        rw [hsu]
        exact hsolve
      rw [if_neg (by omega), Board.finish_survey hbj (hserial.trans hn) (hkind.trans hk) (hdrive.trans hd)
        (hsectors.trans hs) (hrelay.trans hrel) hleftServed rfl hleftOwner hbsolve hbauto]
      refine (Board.decide_kept hover hkept true).trans ?_
      dsimp only
      rw [show b.now = now from hnow]
      rfl

end Sys2Proof.Machine
end
